-- ==== Sys2Proof/Word.lean ====
section
/-! DEFINITION. The two widths of the machine (00_scope.md R16, R17). -/

namespace Sys2Proof

/-- A `u8`: a data register, a byte of memory, an opcode (R17). -/
abbrev Byte := BitVec 8

/-- A `u16`: the program counter, an address (R17). -/
abbrev Word := BitVec 16

end Sys2Proof
end

