-- ==== Sys2Proof/Machine/Memory.lean ====
section
/-! DEFINITION. The plain RAM part of the memory map (20_memory.md R45, R46): 65536 bytes, held as (address, byte) pairs in
one canonical form. -/

namespace Sys2Proof.Machine

/-- Bytes by address: addresses rising, no entry equal to what an unlisted address reads as. -/
abbrev Memory := List Host.Cell

/-- The number of byte addresses, 0x0000 to 0xFFFF (20_memory.md R45). -/
def addressSpace : Nat := 65536

/-- What RAM that nothing has written reads as. The spec leaves initial contents to the memory map; its test vectors read
0 (95_test_vectors.md). DESIGN CHOICE, unsafe for runs from `State.reset`: log 5. -/
def unwrittenByte : Byte := 0

/-- The byte at an address. -/
def Memory.read : Memory → Nat → Byte
  | [], _ => unwrittenByte
  | (k, w) :: rest, a => if k = a then w else Memory.read rest a

/-- `m` with `v` at `a`, in canonical form: writing `unwrittenByte` removes the entry. -/
def Memory.write : Memory → Nat → Byte → Memory
  | [], a, v => if v = unwrittenByte then [] else [(a, v)]
  | (k, w) :: rest, a, v =>
    if k < a then (k, w) :: Memory.write rest a v
    else
      let tail := if k = a then rest else (k, w) :: rest
      if v = unwrittenByte then tail else (a, v) :: tail

/-- Every address of `m` is at least `lo`, below the end of the address space, and they rise; no value is the unlisted one. -/
def Memory.wfFrom : Nat → Memory → Bool
  | _, [] => true
  | lo, (k, w) :: rest => decide (lo ≤ k) && decide (k < addressSpace) && decide (w ≠ unwrittenByte) && Memory.wfFrom (k + 1) rest

/-- The canonical form. -/
def Memory.wf (m : Memory) : Bool := Memory.wfFrom 0 m

end Sys2Proof.Machine
end

