-- ==== Sys2Proof/Config.lean ====
section
/-! DEFINITION. What an implementation fixes (the parameters of 00_scope.md section 4, as a record that State holds), and
the free values: what the spec leaves open, as constants with no body, of which nothing can be proved. -/

namespace Sys2Proof

/-- The parameters the spec makes arguments of the model (00_scope.md R8, R10 to R13). Their values for this hardware
are `Params.nyra` (Machine/Parameters.lean). A claim about every state is a claim about every value of them. -/
structure Params where
  /-- PAGE_CROSS_PENALTY (R8). -/
  pageCrossPenalty : Nat
  /-- BASE_CYCLES, indexed by the opcode byte (R10). -/
  baseCycles : List Nat
  /-- STD_EXTRAS (R11): are BRK, CLI and NOP decoded? -/
  stdExtras : Bool
  /-- ZP_POINTER_WRAP (R12). -/
  zpPointerWrap : Bool
  /-- JMI_CYCLES (R13). -/
  jmiCycles : Nat
deriving DecidableEq, Repr

/-- One access at the memory port (00_scope.md R5, 20_memory.md R49): every access moves one byte. -/
inductive Access where
  /-- `MemRead(addr, 1)` -/
  | read (addr : Word)
  /-- `MemWrite(addr, 1, v)` -/
  | write (addr : Word) (v : Byte)
deriving DecidableEq, Repr

/-- FREE VALUE (log 6; safe). What the memory map answers to a read of an address it does not back with plain RAM: any
byte, and it may depend on the whole history of accesses, newest first (20_memory.md R46, 92 D23). -/
opaque Config.mapByte : List Access → Word → Byte

/-- FREE VALUE (log 4; safe). A as the `n`-th `Reset` command leaves it (70_reset_and_hazards.md R172, R173). -/
opaque Config.drawA : Nat → Byte
/-- FREE VALUE (log 4; safe). X after the `n`-th `Reset` command (R172, R173). -/
opaque Config.drawX : Nat → Byte
/-- FREE VALUE (log 4; safe). Y after the `n`-th `Reset` command (R172, R173). -/
opaque Config.drawY : Nat → Byte
/-- FREE VALUE (log 4; safe). P.C after the `n`-th `Reset` command (R172, R173). -/
opaque Config.drawC : Nat → Bool
/-- FREE VALUE (log 4; safe). P.Z after the `n`-th `Reset` command (R172, R173). -/
opaque Config.drawZ : Nat → Bool
/-- FREE VALUE (log 4; safe). P.D after the `n`-th `Reset` command (R172, R173). -/
opaque Config.drawD : Nat → Bool
/-- FREE VALUE (log 4; safe). P.V after the `n`-th `Reset` command (R172, R173). -/
opaque Config.drawV : Nat → Bool
/-- FREE VALUE (log 4; safe). P.N after the `n`-th `Reset` command (R172, R173). -/
opaque Config.drawN : Nat → Bool
/-- FREE VALUE (log 4; safe). LATCH's EA after the `n`-th `Reset` command (R172). -/
opaque Config.drawLatchEa : Nat → Word
/-- FREE VALUE (log 4; safe). LATCH's VAL after the `n`-th `Reset` command (R172). -/
opaque Config.drawLatchVal : Nat → Byte

end Sys2Proof
end

