-- ==== Sys2Proof/Machine/Parameters.lean ====
section
/-! DEFINITION. The values of the parameters for this hardware, and the fixed addresses (00_scope.md section 4). -/

namespace Sys2Proof

/-- STACK_BASE (00_scope.md R9), fixed (92 D20). -/
def stackBase : Word := 0x0100

/-- RESET_VECTOR (00_scope.md R14; the spec's general knowledge, PRESUMED, unsafe: log 11). -/
def resetVector : Word := 0xFFFC

/-- IRQ_BRK_VECTOR (00_scope.md R15; used by BRK alone; PRESUMED, unsafe: log 30). -/
def irqBrkVector : Word := 0xFFFE

/-- The reset value of S (10_state.md R26; PRESUMED by the spec, unsafe: log 11). -/
def resetSp : Byte := 0xFD

/-- The suggested BASE_CYCLES: opcode_table.json, field `cycles`, one line per high digit of the opcode byte, 0 at the
bytes that are always Null (00_scope.md R10; PRESUMED by the spec, unsafe: log 9). -/
def suggestedCycles : List Nat :=
  [7, 6, 0, 0, 0, 3, 5, 0, 3, 2, 2, 0, 0, 4, 6, 0] ++
  [2, 5, 0, 0, 0, 4, 6, 0, 2, 4, 0, 0, 0, 4, 7, 0] ++
  [6, 6, 0, 0, 3, 3, 5, 0, 4, 2, 2, 0, 4, 4, 6, 0] ++
  [2, 5, 0, 0, 0, 4, 6, 0, 2, 4, 0, 0, 0, 4, 7, 0] ++
  [6, 6, 0, 0, 0, 3, 5, 0, 3, 2, 2, 0, 3, 4, 6, 0] ++
  [2, 5, 0, 0, 0, 4, 6, 0, 2, 4, 0, 0, 0, 4, 7, 0] ++
  [6, 6, 0, 0, 0, 3, 5, 0, 4, 2, 2, 0, 5, 4, 6, 0] ++
  [2, 5, 0, 0, 0, 4, 6, 0, 2, 4, 0, 0, 0, 4, 7, 0] ++
  [0, 6, 0, 0, 3, 3, 3, 0, 2, 0, 2, 0, 4, 4, 4, 0] ++
  [2, 6, 0, 0, 4, 4, 4, 0, 2, 5, 2, 0, 0, 5, 0, 0] ++
  [2, 6, 2, 0, 3, 3, 3, 0, 2, 2, 2, 0, 4, 4, 4, 0] ++
  [2, 5, 0, 0, 4, 4, 4, 0, 2, 4, 2, 0, 4, 4, 4, 0] ++
  [2, 6, 0, 0, 3, 3, 5, 0, 2, 2, 2, 0, 4, 4, 6, 0] ++
  [2, 5, 0, 0, 0, 4, 6, 0, 2, 4, 0, 0, 0, 4, 7, 0] ++
  [2, 6, 0, 0, 3, 3, 5, 0, 2, 2, 2, 0, 4, 4, 6, 0] ++
  [2, 5, 0, 0, 0, 4, 6, 0, 2, 4, 0, 0, 0, 4, 7, 0]

/-- This hardware (00_scope.md R8 to R13): PAGE_CROSS_PENALTY = 3, STD_EXTRAS = false, ZP_POINTER_WRAP = false, and the
suggested BASE_CYCLES and JMI_CYCLES (log 9, 10, 20, 22). -/
def Params.nyra : Params where
  pageCrossPenalty := 3
  baseCycles := suggestedCycles
  stdExtras := false
  zpPointerWrap := false
  jmiCycles := 7

/-- BASE_CYCLES of one opcode byte (R10); R7 makes it a property the driver can query. -/
def Params.cyclesOf (cfg : Params) (op : Byte) : Nat := cfg.baseCycles.getD op.toNat 0

end Sys2Proof
end

