-- ==== Sys2Proof/Syntax.lean ====
section
/-! DEFINITION. The instructions: one constructor per mnemonic of spec/opcode_table.json. A row of that table is an
(addressing mode, operation) pairing (30_encoding.md R67); the constructor carries the mode with its operand bytes as an
`Operand`, so every row is one constructor at one mode (log 26). -/

namespace Sys2Proof

/-- The 13 addressing modes (30_encoding.md R64, R73 to R83). -/
inductive Mode where
  | implied | accumulator | immediate
  | zeroPage | zeroPageX | zeroPageY
  | absolute | absoluteX | absoluteY | indirect
  | indexedIndirectX | indirectIndexedY | relative
deriving DecidableEq, Repr

/-- An addressing mode together with the operand bytes it consumes: none (format F1), `operandLow` (F2) or the
little-endian `operandWord` (F3) (30_encoding.md R64). -/
inductive Operand where
  | implied
  | accumulator
  | immediate (ol : Byte)
  | zeroPage (ol : Byte)
  | zeroPageX (ol : Byte)
  | zeroPageY (ol : Byte)
  | absolute (ow : Word)
  | absoluteX (ow : Word)
  | absoluteY (ow : Word)
  | indirect (ow : Word)
  | indexedIndirectX (ol : Byte)
  | indirectIndexedY (ol : Byte)
  | relative (ol : Byte)
deriving DecidableEq, Repr

/-- The mode of an operand. -/
def Operand.mode : Operand → Mode
  | .implied => .implied
  | .accumulator => .accumulator
  | .immediate _ => .immediate
  | .zeroPage _ => .zeroPage
  | .zeroPageX _ => .zeroPageX
  | .zeroPageY _ => .zeroPageY
  | .absolute _ => .absolute
  | .absoluteX _ => .absoluteX
  | .absoluteY _ => .absoluteY
  | .indirect _ => .indirect
  | .indexedIndirectX _ => .indexedIndirectX
  | .indirectIndexedY _ => .indirectIndexedY
  | .relative _ => .relative

/-- The instruction set (41_load_store.md to 49_control.md). An operation with one mode only carries just its operand:
the branches their offset byte, JSR its target word; the Implied operations carry nothing. -/
inductive Instr where
  -- 41_load_store.md R95 to R100
  | lda (m : Operand) | ldx (m : Operand) | ldy (m : Operand)
  | sta (m : Operand) | stx (m : Operand) | sty (m : Operand)
  -- 42_shift_rotate.md R102 to R105
  | asl (m : Operand) | lsr (m : Operand) | rol (m : Operand) | ror (m : Operand)
  -- 43_inc_dec.md R106 to R111
  | inc (m : Operand) | dec (m : Operand)
  | inx | iny | dex | dey
  -- 44_transfers.md R112 to R117
  | tax | txa | tay | tya | tsx | txs
  -- 45_flag_ops.md R118 to R124
  | sec | clc | clv | sei | sed | cld | cli
  -- 46_stack_ops.md R125 to R128
  | pha | pla | php | plp
  -- 47_compare_logic.md R129 to R135
  | cmp (m : Operand) | cpx (m : Operand) | cpy (m : Operand)
  | and (m : Operand) | ora (m : Operand) | eor (m : Operand) | bit (m : Operand)
  -- 48_add_sub.md R136, R137
  | adc (m : Operand) | sbc (m : Operand)
  -- 49_control.md R138 to R142
  | jmp (m : Operand) | jsr (target : Word) | rts
  /-- JMI has no opcode byte: it is the driver's `Interrupt(target)` (R69, R141; log 17). -/
  | jmi (target : Word)
  | rti
  -- 49_control.md R144 to R151
  | bpl (ol : Byte) | bmi (ol : Byte) | bvc (ol : Byte) | bvs (ol : Byte)
  | bcc (ol : Byte) | bcs (ol : Byte) | bne (ol : Byte) | beq (ol : Byte)
  -- 49_control.md R152 to R154
  /-- The fatal placeholder of the bytes of R68; it carries the byte, which the fault records (R155). -/
  | null (op : Byte)
  | brk | nop
deriving DecidableEq, Repr

end Sys2Proof
end

