-- ==== Sys2Proof/WellFormed.lean ====
section
/-! DEFINITION. Which terms of `Instr` are instructions of the opcode map: the modes the Encoding line of each instruction
rule gives, and the Null byte list of 30_encoding.md R68. Both lists are written from the rules, not from the decoder's
grid. -/

namespace Sys2Proof

/-- The 105 bytes that are Null whatever STD_EXTRAS says (30_encoding.md R68, the list without 00, 58 and EA). -/
def alwaysNull : List Byte :=
  [0x02, 0x03, 0x04, 0x07, 0x0B, 0x0C, 0x0F, 0x12, 0x13, 0x14, 0x17, 0x1A, 0x1B, 0x1C, 0x1F] ++
  [0x22, 0x23, 0x27, 0x2B, 0x2F, 0x32, 0x33, 0x34, 0x37, 0x3A, 0x3B, 0x3C, 0x3F] ++
  [0x42, 0x43, 0x44, 0x47, 0x4B, 0x4F, 0x52, 0x53, 0x54, 0x57, 0x5A, 0x5B, 0x5C, 0x5F] ++
  [0x62, 0x63, 0x64, 0x67, 0x6B, 0x6F, 0x72, 0x73, 0x74, 0x77, 0x7A, 0x7B, 0x7C, 0x7F] ++
  [0x80, 0x82, 0x83, 0x87, 0x89, 0x8B, 0x8F, 0x92, 0x93, 0x97, 0x9B, 0x9C, 0x9E, 0x9F] ++
  [0xA3, 0xA7, 0xAB, 0xAF, 0xB2, 0xB3, 0xB7, 0xBB, 0xBF] ++
  [0xC2, 0xC3, 0xC7, 0xCB, 0xCF, 0xD2, 0xD3, 0xD4, 0xD7, 0xDA, 0xDB, 0xDC, 0xDF] ++
  [0xE2, 0xE3, 0xE7, 0xEB, 0xEF, 0xF2, 0xF3, 0xF4, 0xF7, 0xFA, 0xFB, 0xFC, 0xFF]

/-- The bytes of BRK, CLI and NOP, Null only while STD_EXTRAS is false (30_encoding.md R68, 00_scope.md R11). -/
def extraBytes : List Byte := [0x00, 0x58, 0xEA]

/-- Is `b` a Null byte, with STD_EXTRAS as given (30_encoding.md R68)? -/
def isNullByte (stdExtras : Bool) (b : Byte) : Bool :=
  alwaysNull.contains b || (!stdExtras && extraBytes.contains b)

/-- The modes of LDA, CMP, AND, ORA, EOR, ADC and SBC (R95, R129, R132 to R134, R136, R137). -/
def accumulatorReadModes : List Mode :=
  [.immediate, .zeroPage, .zeroPageX, .absolute, .absoluteX, .absoluteY, .indexedIndirectX, .indirectIndexedY]

/-- The modes of ASL, LSR, ROL and ROR (R102 to R105). -/
def shiftModes : List Mode := [.accumulator, .zeroPage, .zeroPageX, .absolute, .absoluteX]

/-- The modes the Encoding line of an instruction's rule gives it, for the instructions that carry an `Operand`. -/
def Instr.modes : Instr → List Mode
  | .lda _ | .cmp _ | .and _ | .ora _ | .eor _ | .adc _ | .sbc _ => accumulatorReadModes
  | .ldx _ => [.immediate, .zeroPage, .zeroPageY, .absolute, .absoluteY]
  | .ldy _ => [.immediate, .zeroPage, .zeroPageX, .absolute, .absoluteX]
  | .sta _ => [.zeroPage, .zeroPageX, .absolute, .absoluteX, .absoluteY, .indexedIndirectX, .indirectIndexedY]
  | .stx _ => [.zeroPage, .zeroPageY, .absolute]
  | .sty _ => [.zeroPage, .zeroPageX, .absolute]
  | .asl _ | .lsr _ | .rol _ | .ror _ => shiftModes
  | .inc _ | .dec _ => [.zeroPage, .zeroPageX, .absolute, .absoluteX]
  | .cpx _ | .cpy _ => [.immediate, .zeroPage, .absolute]
  | .bit _ => [.zeroPage, .absolute]
  | .jmp _ => [.absolute, .indirect]
  | .inx | .iny | .dex | .dey | .tax | .txa | .tay | .tya | .tsx | .txs => []
  | .sec | .clc | .clv | .sei | .sed | .cld | .cli | .pha | .pla | .php | .plp => []
  | .jsr _ | .rts | .jmi _ | .rti | .brk | .nop | .null _ => []
  | .bpl _ | .bmi _ | .bvc _ | .bvs _ | .bcc _ | .bcs _ | .bne _ | .beq _ => []

/-- Is the term an instruction of the core, with STD_EXTRAS as given? An operand's mode is one its rule lists; a Null
byte is one of R68; BRK, CLI and NOP exist only under STD_EXTRAS (R124, R153, R154). -/
def Instr.wellFormed (stdExtras : Bool) (i : Instr) : Bool :=
  match i with
  | .lda m | .ldx m | .ldy m | .sta m | .stx m | .sty m | .asl m | .lsr m | .rol m | .ror m | .inc m | .dec m
  | .cmp m | .cpx m | .cpy m | .and m | .ora m | .eor m | .bit m | .adc m | .sbc m | .jmp m => i.modes.contains m.mode
  | .inx | .iny | .dex | .dey | .tax | .txa | .tay | .tya | .tsx | .txs => true
  | .sec | .clc | .clv | .sei | .sed | .cld | .pha | .pla | .php | .plp => true
  | .jsr _ | .rts | .jmi _ | .rti => true
  | .bpl _ | .bmi _ | .bvc _ | .bvs _ | .bcc _ | .bcs _ | .bne _ | .beq _ => true
  | .cli | .brk | .nop => stdExtras
  | .null op => isNullByte stdExtras op

end Sys2Proof
end

