-- ==== Sys2Proof/Decode.lean ====
section
/-! DEFINITION. From bytes to instructions and back. The decoder reads the grid of 30_encoding.md R67; the encoder is
written from the Encoding lines of the instruction rules. The opcode map is the spec's decision D4, from general
knowledge (PRESUMED, unsafe: log 13). -/

namespace Sys2Proof

/-! ## Bytes and words (00_scope.md R17, 20_memory.md R52) -/

/-- `lo(w) = w[7:0]`. -/
def loByte (w : Word) : Byte := w.extractLsb' 0 8

/-- `hi(w) = w[15:8]`. -/
def hiByte (w : Word) : Byte := w.extractLsb' 8 8

/-- `hi:lo = hi*256 + lo`. -/
def joinBytes (hi lo : Byte) : Word := hi ++ lo

/-- `zext_16`. -/
def zext16 (b : Byte) : Word := b.zeroExtend 16

/-- `sext_16`: `b` if `b[7] = 0`, else `b + 0xFF00`. -/
def sext16 (b : Byte) : Word := b.signExtend 16

/-! ## Formats and lengths (30_encoding.md R64, R65) -/

/-- The length in bytes of an instruction of mode `m` (R65). -/
def Mode.length : Mode → Nat
  | .implied | .accumulator => 1
  | .immediate | .zeroPage | .zeroPageX | .zeroPageY | .indexedIndirectX | .indirectIndexedY | .relative => 2
  | .absolute | .absoluteX | .absoluteY | .indirect => 3

/-- The operand a mode makes of `operandLow` and `operandHigh`; `operandWord = operandLow | (operandHigh << 8)` (R64). -/
def Operand.ofBytes (m : Mode) (ol oh : Byte) : Operand :=
  match m with
  | .implied => .implied
  | .accumulator => .accumulator
  | .immediate => .immediate ol
  | .zeroPage => .zeroPage ol
  | .zeroPageX => .zeroPageX ol
  | .zeroPageY => .zeroPageY ol
  | .absolute => .absolute (joinBytes oh ol)
  | .absoluteX => .absoluteX (joinBytes oh ol)
  | .absoluteY => .absoluteY (joinBytes oh ol)
  | .indirect => .indirect (joinBytes oh ol)
  | .indexedIndirectX => .indexedIndirectX ol
  | .indirectIndexedY => .indirectIndexedY ol
  | .relative => .relative ol

/-- The operand bytes, in the order they stand in memory (R64). -/
def Operand.bytes : Operand → List Byte
  | .implied | .accumulator => []
  | .immediate ol | .zeroPage ol | .zeroPageX ol | .zeroPageY ol | .indexedIndirectX ol | .indirectIndexedY ol
  | .relative ol => [ol]
  | .absolute ow | .absoluteX ow | .absoluteY ow | .indirect ow => [loByte ow, hiByte ow]

/-- `operandLow` of an operand that has one, else 0 (R84). -/
def Operand.low : Operand → Byte
  | .implied | .accumulator => 0
  | .immediate ol | .zeroPage ol | .zeroPageX ol | .zeroPageY ol | .indexedIndirectX ol | .indirectIndexedY ol
  | .relative ol => ol
  | .absolute ow | .absoluteX ow | .absoluteY ow | .indirect ow => loByte ow

/-- `operandWord` of an operand that has one, else 0. -/
def Operand.word : Operand → Word
  | .absolute ow | .absoluteX ow | .absoluteY ow | .indirect ow => ow
  | .implied | .accumulator | .immediate _ | .zeroPage _ | .zeroPageX _ | .zeroPageY _ | .indexedIndirectX _
  | .indirectIndexedY _ | .relative _ => 0

/-- The mode and operand bytes of an instruction. JMI is resolved by no mode: the driver supplies its target (R141). -/
def Instr.operand : Instr → Operand
  | .lda m | .ldx m | .ldy m | .sta m | .stx m | .sty m | .asl m | .lsr m | .rol m | .ror m | .inc m | .dec m
  | .cmp m | .cpx m | .cpy m | .and m | .ora m | .eor m | .bit m | .adc m | .sbc m | .jmp m => m
  | .jsr t => .absolute t
  | .bpl d | .bmi d | .bvc d | .bvs d | .bcc d | .bcs d | .bne d | .beq d => .relative d
  | .inx | .iny | .dex | .dey | .tax | .txa | .tay | .tya | .tsx | .txs => .implied
  | .sec | .clc | .clv | .sei | .sed | .cld | .cli | .pha | .pla | .php | .plp => .implied
  | .rts | .jmi _ | .rti | .brk | .nop | .null _ => .implied

/-- The length in bytes of an instruction (R65, R66). -/
def Instr.length (i : Instr) : Nat := i.operand.mode.length

/-! ## The grid of R67 -/

/-- One cell of the grid: Null, a pairing of a mode and an operation, or an entry in parentheses, decoded only under
STD_EXTRAS. -/
inductive Cell where
  | null
  | pair (m : Mode) (f : Operand → Instr)
  | extra (i : Instr)

namespace Grid

def null : Cell := .null
def extra (i : Instr) : Cell := .extra i
def imp (i : Instr) : Cell := .pair .implied fun _ => i
def acc (f : Operand → Instr) : Cell := .pair .accumulator f
def imm (f : Operand → Instr) : Cell := .pair .immediate f
def zp (f : Operand → Instr) : Cell := .pair .zeroPage f
def zpX (f : Operand → Instr) : Cell := .pair .zeroPageX f
def zpY (f : Operand → Instr) : Cell := .pair .zeroPageY f
def abs (f : Operand → Instr) : Cell := .pair .absolute f
def absX (f : Operand → Instr) : Cell := .pair .absoluteX f
def absY (f : Operand → Instr) : Cell := .pair .absoluteY f
def ind (f : Operand → Instr) : Cell := .pair .indirect f
def indX (f : Operand → Instr) : Cell := .pair .indexedIndirectX f
def indY (f : Operand → Instr) : Cell := .pair .indirectIndexedY f
def rel (f : Byte → Instr) : Cell := .pair .relative fun o => f o.low
/-- JSR abs: its constructor carries the target word alone. -/
def jump (f : Word → Instr) : Cell := .pair .absolute fun o => f o.word

def row0 : List Cell :=
  [extra .brk, indX .ora, null, null, null, zp .ora, zp .asl, null,
   imp .php, imm .ora, acc .asl, null, null, abs .ora, abs .asl, null]

def row1 : List Cell :=
  [rel .bpl, indY .ora, null, null, null, zpX .ora, zpX .asl, null,
   imp .clc, absY .ora, null, null, null, absX .ora, absX .asl, null]

def row2 : List Cell :=
  [jump .jsr, indX .and, null, null, zp .bit, zp .and, zp .rol, null,
   imp .plp, imm .and, acc .rol, null, abs .bit, abs .and, abs .rol, null]

def row3 : List Cell :=
  [rel .bmi, indY .and, null, null, null, zpX .and, zpX .rol, null,
   imp .sec, absY .and, null, null, null, absX .and, absX .rol, null]

def row4 : List Cell :=
  [imp .rti, indX .eor, null, null, null, zp .eor, zp .lsr, null,
   imp .pha, imm .eor, acc .lsr, null, abs .jmp, abs .eor, abs .lsr, null]

def row5 : List Cell :=
  [rel .bvc, indY .eor, null, null, null, zpX .eor, zpX .lsr, null,
   extra .cli, absY .eor, null, null, null, absX .eor, absX .lsr, null]

def row6 : List Cell :=
  [imp .rts, indX .adc, null, null, null, zp .adc, zp .ror, null,
   imp .pla, imm .adc, acc .ror, null, ind .jmp, abs .adc, abs .ror, null]

def row7 : List Cell :=
  [rel .bvs, indY .adc, null, null, null, zpX .adc, zpX .ror, null,
   imp .sei, absY .adc, null, null, null, absX .adc, absX .ror, null]

def row8 : List Cell :=
  [null, indX .sta, null, null, zp .sty, zp .sta, zp .stx, null,
   imp .dey, null, imp .txa, null, abs .sty, abs .sta, abs .stx, null]

def row9 : List Cell :=
  [rel .bcc, indY .sta, null, null, zpX .sty, zpX .sta, zpY .stx, null,
   imp .tya, absY .sta, imp .txs, null, null, absX .sta, null, null]

def rowA : List Cell :=
  [imm .ldy, indX .lda, imm .ldx, null, zp .ldy, zp .lda, zp .ldx, null,
   imp .tay, imm .lda, imp .tax, null, abs .ldy, abs .lda, abs .ldx, null]

def rowB : List Cell :=
  [rel .bcs, indY .lda, null, null, zpX .ldy, zpX .lda, zpY .ldx, null,
   imp .clv, absY .lda, imp .tsx, null, absX .ldy, absX .lda, absY .ldx, null]

def rowC : List Cell :=
  [imm .cpy, indX .cmp, null, null, zp .cpy, zp .cmp, zp .dec, null,
   imp .iny, imm .cmp, imp .dex, null, abs .cpy, abs .cmp, abs .dec, null]

def rowD : List Cell :=
  [rel .bne, indY .cmp, null, null, null, zpX .cmp, zpX .dec, null,
   imp .cld, absY .cmp, null, null, null, absX .cmp, absX .dec, null]

def rowE : List Cell :=
  [imm .cpx, indX .sbc, null, null, zp .cpx, zp .sbc, zp .inc, null,
   imp .inx, imm .sbc, extra .nop, null, abs .cpx, abs .sbc, abs .inc, null]

def rowF : List Cell :=
  [rel .beq, indY .sbc, null, null, null, zpX .sbc, zpX .inc, null,
   imp .sed, absY .sbc, null, null, null, absX .sbc, absX .inc, null]

/-- The 16 rows, by `opcode[7:4]` (R67). -/
def rows : List (List Cell) :=
  [row0, row1, row2, row3, row4, row5, row6, row7] ++ [row8, row9, rowA, rowB, rowC, rowD, rowE, rowF]

end Grid

/-- The grid's cell of an opcode byte: row `opcode[7:4]`, column `opcode[3:0]` (R67). -/
def cellOf (op : Byte) : Cell := (Grid.rows.getD (op.toNat / 16) []).getD (op.toNat % 16) .null

/-- DECODE (R67, R86): the pairing of an opcode byte, or none where the byte is Null. -/
def pairingOf (stdExtras : Bool) (op : Byte) : Option (Mode × (Operand → Instr)) :=
  match cellOf op with
  | .null => none
  | .pair m f => some (m, f)
  | .extra i => if stdExtras then some (.implied, fun _ => i) else none

/-- MODE of an opcode byte; Null is paired with Implied (R66, R67). -/
def modeOf (stdExtras : Bool) (op : Byte) : Mode :=
  match pairingOf stdExtras op with
  | none => .implied
  | some (m, _) => m

/-- How many bytes a step fetches at an opcode byte: its length (R66), and the opcode alone where it is Null (R86). -/
def lengthOf (stdExtras : Bool) (op : Byte) : Nat := (modeOf stdExtras op).length

/-- The instruction of an opcode byte and its operand bytes, the absent ones 0 (R84). Every byte decodes: a byte that is
no other instruction is Null (R67). -/
def instrOf (stdExtras : Bool) (op ol oh : Byte) : Instr :=
  match pairingOf stdExtras op with
  | none => .null op
  | some (m, f) => f (Operand.ofBytes m ol oh)

/-- Why bytes hold no whole instruction. No opcode byte is refused: Null bytes decode to `Instr.null`. -/
inductive DecodeReject where
  /-- no byte at all -/
  | noOpcode
  /-- the operand bytes of `op` are not all there -/
  | truncated (op : Byte)
deriving DecidableEq, Repr

/-- Decode the first instruction of a list of bytes; the bytes after it are returned (R64 to R67). -/
def decode (stdExtras : Bool) : List Byte → Except DecodeReject (Instr × List Byte)
  | [] => .error .noOpcode
  | op :: rest =>
    match lengthOf stdExtras op, rest with
    | 1, rest => .ok (instrOf stdExtras op 0 0, rest)
    | 2, ol :: rest => .ok (instrOf stdExtras op ol 0, rest)
    | 3, ol :: oh :: rest => .ok (instrOf stdExtras op ol oh, rest)
    | _, _ => .error (.truncated op)

/-! ## The encoder, from the Encoding line of each instruction's rule -/

/-- The Encoding line of LDA, CMP, AND, ORA, EOR, ADC and SBC: the eight modes of R95, R129, R132 to R134, R136 and
R137, in the rules' order. -/
def encodingLine (imm zp zpX abs absX absY indX indY : Byte) : List (Mode × Byte) :=
  [(.immediate, imm), (.zeroPage, zp), (.zeroPageX, zpX), (.absolute, abs), (.absoluteX, absX), (.absoluteY, absY),
   (.indexedIndirectX, indX), (.indirectIndexedY, indY)]

/-- The Encoding line of ASL, LSR, ROL and ROR (R102 to R105): acc, zp, zp,X, abs, abs,X. -/
def shiftLine (acc zp zpX abs absX : Byte) : List (Mode × Byte) :=
  [(.accumulator, acc), (.zeroPage, zp), (.zeroPageX, zpX), (.absolute, abs), (.absoluteX, absX)]

/-- The opcode byte of an instruction; none for JMI, which has no byte (R69), and for a pairing the map lacks. -/
def opcodeOf : Instr → Option Byte
  | .lda m => (encodingLine 0xA9 0xA5 0xB5 0xAD 0xBD 0xB9 0xA1 0xB1).lookup m.mode
  | .ldx m => List.lookup m.mode
      [(.immediate, 0xA2), (.zeroPage, 0xA6), (.zeroPageY, 0xB6), (.absolute, 0xAE), (.absoluteY, 0xBE)]
  | .ldy m => List.lookup m.mode
      [(.immediate, 0xA0), (.zeroPage, 0xA4), (.zeroPageX, 0xB4), (.absolute, 0xAC), (.absoluteX, 0xBC)]
  | .sta m => List.lookup m.mode
      [(.zeroPage, 0x85), (.zeroPageX, 0x95), (.absolute, 0x8D), (.absoluteX, 0x9D), (.absoluteY, 0x99),
       (.indexedIndirectX, 0x81), (.indirectIndexedY, 0x91)]
  | .stx m => List.lookup m.mode [(.zeroPage, 0x86), (.zeroPageY, 0x96), (.absolute, 0x8E)]
  | .sty m => List.lookup m.mode [(.zeroPage, 0x84), (.zeroPageX, 0x94), (.absolute, 0x8C)]
  | .asl m => (shiftLine 0x0A 0x06 0x16 0x0E 0x1E).lookup m.mode
  | .lsr m => (shiftLine 0x4A 0x46 0x56 0x4E 0x5E).lookup m.mode
  | .rol m => (shiftLine 0x2A 0x26 0x36 0x2E 0x3E).lookup m.mode
  | .ror m => (shiftLine 0x6A 0x66 0x76 0x6E 0x7E).lookup m.mode
  | .inc m => List.lookup m.mode [(.zeroPage, 0xE6), (.zeroPageX, 0xF6), (.absolute, 0xEE), (.absoluteX, 0xFE)]
  | .dec m => List.lookup m.mode [(.zeroPage, 0xC6), (.zeroPageX, 0xD6), (.absolute, 0xCE), (.absoluteX, 0xDE)]
  | .inx => some 0xE8 | .iny => some 0xC8 | .dex => some 0xCA | .dey => some 0x88
  | .tax => some 0xAA | .txa => some 0x8A | .tay => some 0xA8 | .tya => some 0x98
  | .tsx => some 0xBA | .txs => some 0x9A
  | .sec => some 0x38 | .clc => some 0x18 | .clv => some 0xB8 | .sei => some 0x78
  | .sed => some 0xF8 | .cld => some 0xD8 | .cli => some 0x58
  | .pha => some 0x48 | .pla => some 0x68 | .php => some 0x08 | .plp => some 0x28
  | .cmp m => (encodingLine 0xC9 0xC5 0xD5 0xCD 0xDD 0xD9 0xC1 0xD1).lookup m.mode
  | .cpx m => List.lookup m.mode [(.immediate, 0xE0), (.zeroPage, 0xE4), (.absolute, 0xEC)]
  | .cpy m => List.lookup m.mode [(.immediate, 0xC0), (.zeroPage, 0xC4), (.absolute, 0xCC)]
  | .and m => (encodingLine 0x29 0x25 0x35 0x2D 0x3D 0x39 0x21 0x31).lookup m.mode
  | .ora m => (encodingLine 0x09 0x05 0x15 0x0D 0x1D 0x19 0x01 0x11).lookup m.mode
  | .eor m => (encodingLine 0x49 0x45 0x55 0x4D 0x5D 0x59 0x41 0x51).lookup m.mode
  | .bit m => List.lookup m.mode [(.zeroPage, 0x24), (.absolute, 0x2C)]
  | .adc m => (encodingLine 0x69 0x65 0x75 0x6D 0x7D 0x79 0x61 0x71).lookup m.mode
  | .sbc m => (encodingLine 0xE9 0xE5 0xF5 0xED 0xFD 0xF9 0xE1 0xF1).lookup m.mode
  | .jmp m => List.lookup m.mode [(.absolute, 0x4C), (.indirect, 0x6C)]
  | .jsr _ => some 0x20 | .rts => some 0x60 | .jmi _ => none | .rti => some 0x40
  | .bpl _ => some 0x10 | .bmi _ => some 0x30 | .bvc _ => some 0x50 | .bvs _ => some 0x70
  | .bcc _ => some 0x90 | .bcs _ => some 0xB0 | .bne _ => some 0xD0 | .beq _ => some 0xF0
  | .null op => some op
  | .brk => some 0x00 | .nop => some 0xEA

/-- The bytes of an instruction: its opcode byte, then its operand bytes (R64). -/
def encode (i : Instr) : Option (List Byte) := (opcodeOf i).map (· :: i.operand.bytes)

/-! ## The host's reading of a table word -/

/-- Byte `k` of a number whose bit 0 is the least significant bit of the first byte. -/
def byteAt (w k : Nat) : Byte := BitVec.ofNat 8 (w / 256 ^ k)

/-- The instruction the decoder reads from the table word `w` of `nbits` bits, with this hardware's STD_EXTRAS; every
bit above `nbits` is 0, up to the longest instruction, three bytes. -/
def decodeTableWord (nbits w : Nat) : Option Instr :=
  let v := w % 2 ^ nbits
  match decode Params.nyra.stdExtras [byteAt v 0, byteAt v 1, byteAt v 2] with
  | .ok (i, _) => some i
  | .error _ => none

end Sys2Proof
end

