-- ==== Sys2Proof/Machine/Status.lean ====
section
/-! DEFINITION. The status register P: eight independent flags, and the byte they make (10_state.md R27, R28). -/

namespace Sys2Proof.Machine

/-- "8 independent single-bit flags" (10_state.md R27). -/
structure Flags where
  /-- Carry (R29) -/
  c : Bool
  /-- Zero (R30) -/
  z : Bool
  /-- Interrupt-disable (R31) -/
  i : Bool
  /-- Decimal (R32) -/
  d : Bool
  /-- Break / "stack" (R33) -/
  b : Bool
  /-- Ignored / always-set (R34) -/
  u : Bool
  /-- Overflow (R35) -/
  v : Bool
  /-- Sign / Negative (R36) -/
  n : Bool
deriving DecidableEq, Repr

/-- The status byte: bits 7 to 0 are N V U B D I Z C (10_state.md R28; PRESUMED by the spec, unsafe: log 12). -/
def Flags.toByte (p : Flags) : Byte :=
  BitVec.ofBool p.n ++ BitVec.ofBool p.v ++ BitVec.ofBool p.u ++ BitVec.ofBool p.b ++
  BitVec.ofBool p.d ++ BitVec.ofBool p.i ++ BitVec.ofBool p.z ++ BitVec.ofBool p.c

/-- `SetP(b)`: every flag from its bit of the byte (10_state.md R28). -/
def Flags.ofByte (b : Byte) : Flags where
  c := b.getLsbD 0
  z := b.getLsbD 1
  i := b.getLsbD 2
  d := b.getLsbD 3
  b := b.getLsbD 4
  u := b.getLsbD 5
  v := b.getLsbD 6
  n := b.getLsbD 7

/-- The mask of bit 4, B, in the status byte (46_stack_ops.md R127, R128). -/
def maskB : Byte := 0x10

/-- The mask of bit 5, U, in the status byte (46_stack_ops.md R128, 49_control.md R142). -/
def maskU : Byte := 0x20

/-- P after reset: I = 1, B = 0, U = 1, and C, Z, D, V, N as given, because the spec leaves them open (70_reset_and_hazards.md
R172; I is PRESUMED by the spec, unsafe: log 11). -/
def resetFlags (c z d v n : Bool) : Flags where
  c := c
  z := z
  i := true
  d := d
  b := false
  u := true
  v := v
  n := n

end Sys2Proof.Machine
end

