-- ==== Sys2Proof/Machine/State.lean ====
section
/-! DEFINITION. The state of the machine: the tuple (A, X, Y, S, P, PC, CYC, LATCH, FAULT) of 10_state.md, the memory map it
drives (20_memory.md R46), the driver's pending commands (00_scope.md R6), the parameters (00_scope.md section 4), and the
state after reset (70_reset_and_hazards.md R172). INVENTORY.md, "State", lists every field with its rule. -/

namespace Sys2Proof.Machine

/-- The Resolved Mode Result (EA, VAL) (10_state.md R41). -/
structure Latch where
  ea : Word
  val : Byte
deriving DecidableEq, Repr

/-- What IllegalOpcode records (10_state.md R42, 60_exceptions.md R155). -/
structure IllegalOpcode where
  pc : Word
  opcode : Byte
deriving DecidableEq, Repr

/-- A stretch of the address space that the memory map does not back with plain RAM: a device, a bank, memory that another
master writes (20_memory.md R46, R56, 60_exceptions.md R168; log 6). -/
structure Region where
  base : Nat
  size : Nat
deriving DecidableEq, Repr

/-- A command of the driver (00_scope.md R6). -/
inductive Command where
  /-- execute one instruction (30_encoding.md R86) -/
  | step
  /-- put the block into its reset state (70_reset_and_hazards.md R172) -/
  | reset
  /-- `Interrupt(target)`: the JMI interrupt entry (49_control.md R141) -/
  | interrupt (target : Word)
deriving DecidableEq, Repr

/-- The machine. -/
structure State where
  /-- accumulator (R22) -/
  a : Byte
  /-- X index (R22) -/
  x : Byte
  /-- Y index (R22) -/
  y : Byte
  /-- stack pointer S (R25) -/
  sp : Byte
  /-- status register P (R27) -/
  p : Flags
  /-- program counter (R38) -/
  pc : Word
  /-- cycle counter CYC, unbounded (R40) -/
  cyc : Nat
  /-- LATCH, the last Resolved Mode Result (R41) -/
  latch : Latch
  /-- FAULT (R42) -/
  fault : Option IllegalOpcode
  /-- the plain RAM part of the memory map (R46) -/
  mem : Memory
  /-- where the memory map answers for itself (R46; log 6) -/
  opaqueRegions : List Region
  /-- the history of accesses at the memory port, newest first (R46, R55; log 7) -/
  bus : List Access
  /-- the driver's commands not yet taken, oldest first (R6; log 8) -/
  commands : List Command
  /-- the parameters (R8, R10 to R13; log 9) -/
  cfg : Params
  /-- MODEL'S OWN: how many `Reset` commands have drawn their free values (R173; log 4) -/
  draws : Nat
deriving DecidableEq, Repr

/-- Why a step ends in a fault: never. The only exception, IllegalOpcode, is recorded in FAULT, which is state, and the
machine answers a next state (60_exceptions.md R155 to R158; safe: log 15). So no constructor. -/
inductive Fault where
deriving DecidableEq, Repr

/-- Why an instruction is refused. -/
inductive Refusal where
  /-- Raised by `exec` for an instruction of the table that has no meaning yet. No arm raises it; it would be safe. -/
  | notModelled (mnemonic : String)
deriving DecidableEq, Repr

/-- The machine right after reset (70_reset_and_hazards.md R172). Memory lists nothing, so `Read16(RESET_VECTOR)` is 0.
A, X, Y, C, Z, D, V, N and LATCH, which the spec leaves open, hold 0 (DESIGN CHOICE, unsafe: log 1, 2, 3). The history holds
the two reads Reset performs, and no command is pending (log 7, 8). -/
def State.reset : State where
  a := 0
  x := 0
  y := 0
  sp := resetSp
  p := resetFlags false false false false false
  pc := joinBytes (Memory.read [] (resetVector + 1).toNat) (Memory.read [] resetVector.toNat)
  cyc := 0
  latch := ⟨0, 0⟩
  fault := none
  mem := []
  opaqueRegions := []
  bus := [.read (resetVector + 1), .read resetVector]
  commands := []
  cfg := Params.nyra
  draws := 0

end Sys2Proof.Machine
end

