-- ==== Sys2Proof/Machine/Ops.lean ====
section
/-! DEFINITION. The shared operations: the memory port, Read16, the stack, the cycle counter, taking the one exception,
interrupt entry and return, and the reset sequence. -/

namespace Sys2Proof.Machine

/-! ## The memory port (00_scope.md R5, R19; 20_memory.md R46, R49) -/

/-- Does the region hold the address? -/
def Region.covers (r : Region) (addr : Word) : Bool :=
  decide (r.base ≤ addr.toNat) && decide (addr.toNat < r.base + r.size)

/-- Does the memory map answer for itself at this address, instead of being plain RAM (R46)? -/
def State.isOpaque (s : State) (addr : Word) : Bool := s.opaqueRegions.any (·.covers addr)

/-- What a read of `addr` returns now: the last byte written, in plain RAM; any byte, depending on every earlier access,
where the memory map answers for itself (R46; log 6). -/
def State.peek (s : State) (addr : Word) : Byte :=
  if s.isOpaque addr then Config.mapByte s.bus addr else s.mem.read addr.toNat

/-- The state after one access at the port: the memory map has seen it (R54, R55; log 7). -/
def State.note (s : State) (x : Access) : State := { s with bus := x :: s.bus }

/-- `MemRead(addr, 1)` (R19): the byte, and the state in which the map has seen the read. -/
def State.memRead (s : State) (addr : Word) : Byte × State := (s.peek addr, s.note (.read addr))

/-- `MemWrite(addr, 1, v)` (R19). Where the map answers for itself, the byte goes to the map alone. -/
def State.memWrite (s : State) (addr : Word) (v : Byte) : State :=
  let t := if s.isOpaque addr then s else { s with mem := s.mem.write addr.toNat v }
  t.note (.write addr v)

/-- The two reads that make a little-endian word of the bytes at `lo` and `hi`, `lo` first (R50, R75). -/
def State.readPair (s : State) (lo hi : Word) : Word × State :=
  let l := s.memRead lo
  let h := l.2.memRead hi
  (joinBytes h.1 l.1, h.2)

/-- `Read16(a)`: low byte first, the second address wrapping at 0xFFFF (20_memory.md R50). -/
def State.read16 (s : State) (a : Word) : Word × State := s.readPair a (a + 1)

/-- `ReadZP16(z)`: the second byte stays in page 0 only under ZP_POINTER_WRAP (20_memory.md R51; log 20). -/
def State.readZP16 (s : State) (z : Byte) : Word × State :=
  if s.cfg.zpPointerWrap then s.readPair (zext16 z) (zext16 (z + 1)) else s.read16 (zext16 z)

/-! ## The stack (20_memory.md R60, R61) -/

/-- The address the stack pointer names: `STACK_BASE + S` (10_state.md R25). -/
def stackAddr (sp : Byte) : Word := stackBase + zext16 sp

/-- `Push(v)`: write, then decrement S (R60). -/
def State.push (s : State) (v : Byte) : State :=
  let t := s.memWrite (stackAddr s.sp) v
  { t with sp := s.sp - 1 }

/-- `Pop()`: increment S, then read (R61). -/
def State.pop (s : State) : Byte × State :=
  let t : State := { s with sp := s.sp + 1 }
  t.memRead (stackAddr t.sp)

/-- Push a word, high byte first, so that it lies little-endian in memory (20_memory.md R52). -/
def State.pushWord (s : State) (w : Word) : State := (s.push (hiByte w)).push (loByte w)

/-- Pop a word, low byte first (20_memory.md R52). -/
def State.popWord (s : State) : Word × State :=
  let l := s.pop
  let h := l.2.pop
  (joinBytes h.1 l.1, h.2)

/-! ## The cycle counter (10_state.md R40) -/

/-- `CYC <- CYC + n` (R19). -/
def State.addCycles (s : State) (n : Nat) : State := { s with cyc := s.cyc + n }

/-! ## Exceptions and interrupts -/

/-- `raise IllegalOpcode(PC0, op)`: FAULT records the pc and the opcode byte; nothing else changes (60_exceptions.md R155,
R156). PC still holds PC0. -/
def State.raiseIllegalOpcode (s : State) (op : Byte) : State := { s with fault := some ⟨s.pc, op⟩ }

/-- The numeric cause: 1 for IllegalOpcode, 0 for none (60_exceptions.md R155). -/
def State.faultCode (s : State) : Nat := if s.fault.isSome then 1 else 0

/-- What JMI and BRK save, in this order: the return address, high byte first, then a status byte (49_control.md R141,
R153; 60_exceptions.md R160). -/
def State.saveContext (s : State) (ret : Word) (status : Byte) : State := (s.pushWord ret).push status

/-- Interrupt entry: save PC and P as they stand, jump to the driver's target, add JMI_CYCLES. I is not set and no bit of
the saved byte is forced (49_control.md R141, 60_exceptions.md R160; log 18). -/
def State.interruptEntry (s : State) (target : Word) : State :=
  let t := s.saveContext s.pc s.p.toByte
  { t with pc := target, cyc := t.cyc + t.cfg.jmiCycles }

/-- The software trap of BRK: save PC0 + 2 and P with B forced, set I, and load PC from the vector (49_control.md R153,
60_exceptions.md R164; log 30). -/
def State.softwareTrap (s : State) : State :=
  let t := s.saveContext (s.pc + 2) (s.p.toByte ||| maskB)
  let v := State.read16 { t with p := { t.p with i := true } } irqBrkVector
  { v.2 with pc := v.1 }

/-- Return from interrupt: P from the stack with U forced and B as popped, then PC, low byte first, with no offset
(49_control.md R142, 60_exceptions.md R161; log 23). -/
def State.interruptReturn (s : State) : State :=
  let b := s.pop
  let w := State.popWord { b.2 with p := Flags.ofByte (b.1 ||| maskU) }
  { w.2 with pc := w.1 }

/-! ## Reset (70_reset_and_hazards.md R172) -/

/-- The `Reset` command: the two vector reads, and every register as R172 gives it; what it leaves unspecified is a free
value of the draw counter (R173; log 4). Memory, the map and the driver's queue are not the core's to reset (log 31). -/
def State.resetSequence (s : State) : State :=
  let v := s.read16 resetVector
  { v.2 with
    a := Config.drawA s.draws
    x := Config.drawX s.draws
    y := Config.drawY s.draws
    sp := resetSp
    p := resetFlags (Config.drawC s.draws) (Config.drawZ s.draws) (Config.drawD s.draws) (Config.drawV s.draws)
      (Config.drawN s.draws)
    pc := v.1
    cyc := 0
    latch := ⟨Config.drawLatchEa s.draws, Config.drawLatchVal s.draws⟩
    fault := none
    draws := s.draws + 1 }

end Sys2Proof.Machine
end

