-- ==== Sys2Proof/Machine/Operands.lean ====
section
/-! DEFINITION. The addressing-mode resolver, all 13 modes (30_encoding.md R71 to R83), and the part of a step that every
instruction of the decode table shares (R86): base cycles, resolution, LATCH, then the execute phase and the advance of PC. -/

namespace Sys2Proof.Machine

/-- Does the pairing read VAL in Absolute mode? All but STA, STX, STY, JMP and JSR (30_encoding.md R71; log 21). Every other
memory mode always reads. -/
def readsAbsolute : Instr → Bool
  | .sta _ | .stx _ | .sty _ | .jmp _ | .jsr _ => false
  | .lda _ | .ldx _ | .ldy _ | .asl _ | .lsr _ | .rol _ | .ror _ | .inc _ | .dec _ | .cmp _ | .cpx _ | .cpy _
  | .and _ | .ora _ | .eor _ | .bit _ | .adc _ | .sbc _ => true
  | .inx | .iny | .dex | .dey | .tax | .txa | .tay | .tya | .tsx | .txs => true
  | .sec | .clc | .clv | .sei | .sed | .cld | .cli | .pha | .pla | .php | .plp => true
  | .rts | .jmi _ | .rti | .brk | .nop | .null _ => true
  | .bpl _ | .bmi _ | .bvc _ | .bvs _ | .bcc _ | .bcs _ | .bne _ | .beq _ => true

/-- Is the instruction of the read class (30_encoding.md R72)? -/
def isReadClass : Instr → Bool
  | .lda _ | .ldx _ | .ldy _ | .and _ | .ora _ | .eor _ | .adc _ | .sbc _ | .cmp _ | .cpx _ | .cpy _ | .bit _ => true
  | .sta _ | .stx _ | .sty _ | .asl _ | .lsr _ | .rol _ | .ror _ | .inc _ | .dec _ | .jmp _ | .jsr _ => false
  | .inx | .iny | .dex | .dey | .tax | .txa | .tay | .tya | .tsx | .txs => false
  | .sec | .clc | .clv | .sei | .sed | .cld | .cli | .pha | .pla | .php | .plp => false
  | .rts | .jmi _ | .rti | .brk | .nop | .null _ => false
  | .bpl _ | .bmi _ | .bvc _ | .bvs _ | .bcc _ | .bcs _ | .bne _ | .beq _ => false

/-- The modes whose page crossing may cost cycles (30_encoding.md R72). -/
def isIndexedMode : Mode → Bool
  | .absoluteX | .absoluteY | .indirectIndexedY => true
  | .implied | .accumulator | .immediate | .zeroPage | .zeroPageX | .zeroPageY | .absolute | .indirect
  | .indexedIndirectX | .relative => false

/-- Is the (instruction, mode) pairing cycle-sensitive (30_encoding.md R72; log 22)? -/
def isCycleSensitive (i : Instr) : Bool := isReadClass i && isIndexedMode i.operand.mode

/-- Does adding the index leave the base's page? The sum is not truncated (30_encoding.md R78, R79). -/
def crossesPage (base : Word) (idx : Byte) : Bool :=
  (base.toNat &&& 0xFF00) != ((base.toNat + idx.toNat) &&& 0xFF00)

/-- The penalty of an indexed access (30_encoding.md R78, R79). -/
def State.chargeCrossing (s : State) (sensitive : Bool) (base : Word) (idx : Byte) : State :=
  if sensitive && crossesPage base idx then s.addCycles s.cfg.pageCrossPenalty else s

/-- `EA <- ea; VAL <- MemRead(EA, 1)` (30_encoding.md R71). -/
def State.readAt (s : State) (ea : Word) : Latch × State :=
  let r := s.memRead ea
  (⟨ea, r.1⟩, r.2)

/-- `EA <- (base + idx) mod 65536`, with the penalty, then the read of VAL (30_encoding.md R78, R79; log 19). -/
def State.readIndexed (s : State) (sensitive : Bool) (base : Word) (idx : Byte) : Latch × State :=
  (s.chargeCrossing sensitive base idx).readAt (base + zext16 idx)

/-- Where JMP (abs) reads its pointer's high byte: in the same page, at offset 0, when the low byte of the pointer's address
is 0xFF (30_encoding.md R75). -/
def pointerHighAddr (ow : Word) : Word :=
  if loByte ow = 0xFF then joinBytes (hiByte ow) 0 else ow + 1

/-- `Resolve(mode, opn)`: (EA, VAL) and the state after the resolution's reads and penalty (30_encoding.md R73 to R83).
`reads` and `sensitive` are the pairing's properties of R71 and R72. -/
def State.resolve (s : State) (reads sensitive : Bool) : Operand → Latch × State
  | .implied => (⟨0, 0⟩, s)
  | .accumulator => (⟨zext16 s.a, s.a⟩, s)
  | .immediate ol => (⟨zext16 ol, ol⟩, s)
  | .zeroPage ol => s.readAt (zext16 ol)
  | .zeroPageX ol => s.readAt (zext16 (ol + s.x))
  | .zeroPageY ol => s.readAt (zext16 (ol + s.y))
  | .absolute ow => if reads then s.readAt ow else (⟨ow, 0⟩, s)
  | .absoluteX ow => s.readIndexed sensitive ow s.x
  | .absoluteY ow => s.readIndexed sensitive ow s.y
  | .indirect ow =>
    let q := s.readPair ow (pointerHighAddr ow)
    (⟨q.1, 0⟩, q.2)
  | .indexedIndirectX ol =>
    let q := s.readZP16 (ol + s.x)
    q.2.readAt q.1
  | .indirectIndexedY ol =>
    let q := s.readZP16 ol
    q.2.readIndexed sensitive q.1 s.y
  | .relative ol => (⟨s.pc + sext16 ol + 2, 0⟩, s)

/-- BASE_CYCLES of an instruction, by its opcode byte (00_scope.md R10). -/
def State.baseCyclesOf (s : State) (i : Instr) : Nat :=
  match opcodeOf i with
  | some op => s.cfg.cyclesOf op
  | none => 0

/-- A step up to its execute phase, the instruction being fetched: `CYC <- CYC + BASE_CYCLES(op)`, resolve, and the result
into LATCH (30_encoding.md R86, 10_state.md R41). -/
def State.prepare (s : State) (i : Instr) : Latch × State :=
  let r := State.resolve (s.addCycles (s.baseCyclesOf i)) (readsAbsolute i) (isCycleSensitive i) i.operand
  (r.1, { r.2 with latch := r.1 })

/-- A step of a control-transfer operation, whose execute phase writes PC itself (30_encoding.md R85, R86). -/
def State.runControl (s : State) (i : Instr) (execute : Latch → State → State) : State :=
  let r := s.prepare i
  execute r.1 r.2

/-- A step of any other operation: after the execute phase, `PC <- PC0 + LEN` (30_encoding.md R85, R86; log 28). -/
def State.runSequential (s : State) (i : Instr) (execute : Latch → State → State) : State :=
  let t := s.runControl i execute
  { t with pc := s.pc + BitVec.ofNat 16 i.length }

end Sys2Proof.Machine
end

