-- ==== Sys2Proof/Machine/Flags.lean ====
section
/-! DEFINITION. The arithmetic and flag helpers of 40_alu_flag_helpers.md. A helper that returns a byte returns it with the
flags it leaves. -/

namespace Sys2Proof.Machine

/-- `SetZN(v)` (00_scope.md R20, 40_alu_flag_helpers.md R90). -/
def Flags.setZN (p : Flags) (v : Byte) : Flags := { p with z := decide (v = 0), n := v.getLsbD 7 }

/-- `setRegister(v, A)` (R90); the truncation to 8 bits is the byte type's. -/
def State.setRegisterA (s : State) (v : Byte) : State := { s with a := v, p := s.p.setZN v }

/-- `setRegister(v, X)` (R90). -/
def State.setRegisterX (s : State) (v : Byte) : State := { s with x := v, p := s.p.setZN v }

/-- `setRegister(v, Y)` (R90). -/
def State.setRegisterY (s : State) (v : Byte) : State := { s with y := v, p := s.p.setZN v }

/-- `shiftRight(v, rotate)`: bit 7 takes the old Carry when rotating, else 0; Carry takes the old bit 0 (R91). -/
def shiftRight (p : Flags) (v : Byte) (rotate : Bool) : Byte × Flags :=
  let cin := rotate && p.c
  let t := (v >>> 1) ||| (if cin then 0x80 else 0)
  (t, Flags.setZN { p with c := v.getLsbD 0 } t)

/-- `shiftLeft(v, rotate)`: bit 0 takes the old Carry when rotating, else 0; Carry takes the old bit 7 (R92). -/
def shiftLeft (p : Flags) (v : Byte) (rotate : Bool) : Byte × Flags :=
  let cin := rotate && p.c
  let t := (v <<< 1) ||| (if cin then 1 else 0)
  (t, Flags.setZN { p with c := v.getLsbD 7 } t)

/-- `compare(v, r)`, unsigned; V is not written (R93). -/
def Flags.compare (p : Flags) (v r : Byte) : Flags :=
  { p with z := decide (r = v), c := decide (v.toNat ≤ r.toNat), n := (r - v).getLsbD 7 }

/-- `add(v)` on the accumulator's value `a`: the exact sum, then its low byte; V by the formula of R94; D is not read. -/
def addWithCarry (p : Flags) (a v : Byte) : Byte × Flags :=
  let sum := a.toNat + v.toNat + p.c.toNat
  let t := BitVec.ofNat 8 sum
  (t, Flags.setZN { p with v := decide ((a ^^^ t) &&& (v ^^^ t) &&& 0x80 ≠ 0), c := decide (0xFF < sum) } t)

/-- `add(v)` (R94): the accumulator and the flags. -/
def State.addToA (s : State) (v : Byte) : State :=
  let r := addWithCarry s.p s.a v
  { s with a := r.1, p := r.2 }

/-- The flags of BIT: Z from `VAL & A`, V and N from VAL alone (47_compare_logic.md R135). -/
def Flags.bitTest (p : Flags) (v a : Byte) : Flags :=
  { p with z := decide (v &&& a = 0), v := v.getLsbD 6, n := v.getLsbD 7 }

end Sys2Proof.Machine
end

