-- ==== Sys2Proof/Machine/AddSub.lean ====
section
/-! DEFINITION. Add and subtract with carry (48_add_sub.md R136, R137), binary whatever D holds. -/

namespace Sys2Proof.Machine

/-- ADC: `add(VAL)` (R136). -/
def execAdc (m : Operand) (s : State) : Host.Outcome State Fault Refusal :=
  .next (s.runSequential (.adc m) fun r t => t.addToA r.val)

/-- SBC: `add(~VAL)`; C = 1 means no borrow (R137). -/
def execSbc (m : Operand) (s : State) : Host.Outcome State Fault Refusal :=
  .next (s.runSequential (.sbc m) fun r t => t.addToA (~~~r.val))

end Sys2Proof.Machine
end

