-- ==== Sys2Proof/Machine/CompareLogic.lean ====
section
/-! DEFINITION. Compare, bitwise and bit test (47_compare_logic.md R129 to R135). None writes memory. -/

namespace Sys2Proof.Machine

/-- CMP (R129). -/
def execCmp (m : Operand) (s : State) : Host.Outcome State Fault Refusal :=
  .next (s.runSequential (.cmp m) fun r t => { t with p := t.p.compare r.val t.a })

/-- CPX (R130). -/
def execCpx (m : Operand) (s : State) : Host.Outcome State Fault Refusal :=
  .next (s.runSequential (.cpx m) fun r t => { t with p := t.p.compare r.val t.x })

/-- CPY (R131). -/
def execCpy (m : Operand) (s : State) : Host.Outcome State Fault Refusal :=
  .next (s.runSequential (.cpy m) fun r t => { t with p := t.p.compare r.val t.y })

/-- AND (R132). -/
def execAnd (m : Operand) (s : State) : Host.Outcome State Fault Refusal :=
  .next (s.runSequential (.and m) fun r t => t.setRegisterA (t.a &&& r.val))

/-- ORA (R133). -/
def execOra (m : Operand) (s : State) : Host.Outcome State Fault Refusal :=
  .next (s.runSequential (.ora m) fun r t => t.setRegisterA (t.a ||| r.val))

/-- EOR (R134). -/
def execEor (m : Operand) (s : State) : Host.Outcome State Fault Refusal :=
  .next (s.runSequential (.eor m) fun r t => t.setRegisterA (t.a ^^^ r.val))

/-- BIT: A is untouched (R135). -/
def execBit (m : Operand) (s : State) : Host.Outcome State Fault Refusal :=
  .next (s.runSequential (.bit m) fun r t => { t with p := t.p.bitTest r.val t.a })

end Sys2Proof.Machine
end

