-- ==== Sys2Proof/Machine/Control.lean ====
section
/-! DEFINITION. Jumps, the interrupt pair, branches, Null, BRK and NOP (49_control.md R138 to R154). -/

namespace Sys2Proof.Machine

/-- `Branch(cond)`: PC <- EA if the condition holds, else PC0 + 2 (R143). -/
def State.branch (s : State) (cond : Bool) (ea : Word) : State :=
  { s with pc := if cond then ea else s.pc + 2 }

/-- JMP: PC <- EA (R138). -/
def execJmp (m : Operand) (s : State) : Host.Outcome State Fault Refusal :=
  .next (s.runControl (.jmp m) fun r t => { t with pc := r.ea })

/-- JSR: push PC0 + 2, the address of its own last byte, then PC <- EA (R139). -/
def execJsr (target : Word) (s : State) : Host.Outcome State Fault Refusal :=
  .next (s.runControl (.jsr target) fun r t => { t.pushWord (t.pc + 2) with pc := r.ea })

/-- RTS: PC <- the popped word plus 1 (R140). -/
def execRts (s : State) : Host.Outcome State Fault Refusal :=
  .next (s.runControl .rts fun _ t => { t.popWord.2 with pc := t.popWord.1 + 1 })

/-- JMI, the driver's `Interrupt(target)`: nothing while FAULT is set, else the interrupt entry (R141, 60_exceptions.md
R157, R160; log 17). -/
def execJmi (target : Word) (s : State) : Host.Outcome State Fault Refusal :=
  .next (if s.fault.isSome then s else s.interruptEntry target)

/-- RTI (R142). -/
def execRti (s : State) : Host.Outcome State Fault Refusal :=
  .next (s.runControl .rti fun _ t => t.interruptReturn)

/-- BPL: taken when N = 0 (R144; log 29). -/
def execBpl (ol : Byte) (s : State) : Host.Outcome State Fault Refusal :=
  .next (s.runControl (.bpl ol) fun r t => t.branch (!t.p.n) r.ea)

/-- BMI: taken when N = 1 (R145; log 29). -/
def execBmi (ol : Byte) (s : State) : Host.Outcome State Fault Refusal :=
  .next (s.runControl (.bmi ol) fun r t => t.branch t.p.n r.ea)

/-- BVC: taken when V = 0 (R146; log 29). -/
def execBvc (ol : Byte) (s : State) : Host.Outcome State Fault Refusal :=
  .next (s.runControl (.bvc ol) fun r t => t.branch (!t.p.v) r.ea)

/-- BVS: taken when V = 1 (R147; log 29). -/
def execBvs (ol : Byte) (s : State) : Host.Outcome State Fault Refusal :=
  .next (s.runControl (.bvs ol) fun r t => t.branch t.p.v r.ea)

/-- BCC: taken when C = 0 (R148; log 29). -/
def execBcc (ol : Byte) (s : State) : Host.Outcome State Fault Refusal :=
  .next (s.runControl (.bcc ol) fun r t => t.branch (!t.p.c) r.ea)

/-- BCS: taken when C = 1 (R149; log 29). -/
def execBcs (ol : Byte) (s : State) : Host.Outcome State Fault Refusal :=
  .next (s.runControl (.bcs ol) fun r t => t.branch t.p.c r.ea)

/-- BNE: taken when Z = 0 (R150; log 29). -/
def execBne (ol : Byte) (s : State) : Host.Outcome State Fault Refusal :=
  .next (s.runControl (.bne ol) fun r t => t.branch (!t.p.z) r.ea)

/-- BEQ: taken when Z = 1 (R151; log 29). -/
def execBeq (ol : Byte) (s : State) : Host.Outcome State Fault Refusal :=
  .next (s.runControl (.beq ol) fun r t => t.branch t.p.z r.ea)

/-- Null: raise IllegalOpcode. No operand is fetched, no cycle is added, PC stays (R152, 60_exceptions.md R155, R156; log 15). -/
def execNull (op : Byte) (s : State) : Host.Outcome State Fault Refusal :=
  .next (s.raiseIllegalOpcode op)

/-- BRK, decoded only under STD_EXTRAS: the software trap (R153, 60_exceptions.md R164; log 30). -/
def execBrk (s : State) : Host.Outcome State Fault Refusal :=
  .next (s.runControl .brk fun _ t => t.softwareTrap)

/-- NOP, decoded only under STD_EXTRAS: only PC advances (R154; log 30). -/
def execNop (s : State) : Host.Outcome State Fault Refusal :=
  .next (s.runSequential .nop fun _ t => t)

end Sys2Proof.Machine
end

