-- ==== Sys2Proof/Machine/FlagOps.lean ====
section
/-! DEFINITION. Flag set and clear (45_flag_ops.md R118 to R124): one flag each, no other state. -/

namespace Sys2Proof.Machine

/-- SEC (R118). -/
def execSec (s : State) : Host.Outcome State Fault Refusal :=
  .next (s.runSequential .sec fun _ t => { t with p := { t.p with c := true } })

/-- CLC (R119). -/
def execClc (s : State) : Host.Outcome State Fault Refusal :=
  .next (s.runSequential .clc fun _ t => { t with p := { t.p with c := false } })

/-- CLV (R120). -/
def execClv (s : State) : Host.Outcome State Fault Refusal :=
  .next (s.runSequential .clv fun _ t => { t with p := { t.p with v := false } })

/-- SEI (R121). -/
def execSei (s : State) : Host.Outcome State Fault Refusal :=
  .next (s.runSequential .sei fun _ t => { t with p := { t.p with i := true } })

/-- SED (R122). -/
def execSed (s : State) : Host.Outcome State Fault Refusal :=
  .next (s.runSequential .sed fun _ t => { t with p := { t.p with d := true } })

/-- CLD (R123). -/
def execCld (s : State) : Host.Outcome State Fault Refusal :=
  .next (s.runSequential .cld fun _ t => { t with p := { t.p with d := false } })

/-- CLI, decoded only under STD_EXTRAS (R124; log 30). -/
def execCli (s : State) : Host.Outcome State Fault Refusal :=
  .next (s.runSequential .cli fun _ t => { t with p := { t.p with i := false } })

end Sys2Proof.Machine
end

