-- ==== Sys2Proof/Machine/IncDec.lean ====
section
/-! DEFINITION. Increment and decrement (43_inc_dec.md R106 to R111). None writes C or V. -/

namespace Sys2Proof.Machine

/-- `MemWrite(EA, 1, v); SetZN(v)` (R106, R107). -/
def State.storeAndTest (s : State) (ea : Word) (v : Byte) : State :=
  let t := s.memWrite ea v
  { t with p := t.p.setZN v }

/-- INC: the byte at EA plus 1 (R106). -/
def execInc (m : Operand) (s : State) : Host.Outcome State Fault Refusal :=
  .next (s.runSequential (.inc m) fun r t => t.storeAndTest r.ea (r.val + 1))

/-- DEC: the byte at EA minus 1 (R107). -/
def execDec (m : Operand) (s : State) : Host.Outcome State Fault Refusal :=
  .next (s.runSequential (.dec m) fun r t => t.storeAndTest r.ea (r.val - 1))

/-- INX (R108). -/
def execInx (s : State) : Host.Outcome State Fault Refusal :=
  .next (s.runSequential .inx fun _ t => t.setRegisterX (t.x + 1))

/-- INY (R109). -/
def execIny (s : State) : Host.Outcome State Fault Refusal :=
  .next (s.runSequential .iny fun _ t => t.setRegisterY (t.y + 1))

/-- DEX (R110). -/
def execDex (s : State) : Host.Outcome State Fault Refusal :=
  .next (s.runSequential .dex fun _ t => t.setRegisterX (t.x - 1))

/-- DEY (R111). -/
def execDey (s : State) : Host.Outcome State Fault Refusal :=
  .next (s.runSequential .dey fun _ t => t.setRegisterY (t.y - 1))

end Sys2Proof.Machine
end

