-- ==== Sys2Proof/Machine/LoadStore.lean ====
section
/-! DEFINITION. Load and store (41_load_store.md R95 to R100). -/

namespace Sys2Proof.Machine

/-- LDA: A <- VAL, Z and N (R95). -/
def execLda (m : Operand) (s : State) : Host.Outcome State Fault Refusal :=
  .next (s.runSequential (.lda m) fun r t => t.setRegisterA r.val)

/-- LDX: X <- VAL, Z and N (R96). -/
def execLdx (m : Operand) (s : State) : Host.Outcome State Fault Refusal :=
  .next (s.runSequential (.ldx m) fun r t => t.setRegisterX r.val)

/-- LDY: Y <- VAL, Z and N (R97). -/
def execLdy (m : Operand) (s : State) : Host.Outcome State Fault Refusal :=
  .next (s.runSequential (.ldy m) fun r t => t.setRegisterY r.val)

/-- STA: the byte at EA <- A, no flag (R98). -/
def execSta (m : Operand) (s : State) : Host.Outcome State Fault Refusal :=
  .next (s.runSequential (.sta m) fun r t => t.memWrite r.ea t.a)

/-- STX: the byte at EA <- X, no flag (R99). -/
def execStx (m : Operand) (s : State) : Host.Outcome State Fault Refusal :=
  .next (s.runSequential (.stx m) fun r t => t.memWrite r.ea t.x)

/-- STY: the byte at EA <- Y, no flag (R100). -/
def execSty (m : Operand) (s : State) : Host.Outcome State Fault Refusal :=
  .next (s.runSequential (.sty m) fun r t => t.memWrite r.ea t.y)

end Sys2Proof.Machine
end

