-- ==== Sys2Proof/Machine/ShiftRotate.lean ====
section
/-! DEFINITION. Shift and rotate (42_shift_rotate.md R101 to R105). -/

namespace Sys2Proof.Machine

/-- Write-back of a shifted byte and its flags: into A in Accumulator mode, else to memory at EA, with one write (R101). -/
def State.writeBackShift (s : State) (m : Mode) (ea : Word) (r : Byte × Flags) : State :=
  if m = .accumulator then { s with a := r.1, p := r.2 }
  else
    let t := s.memWrite ea r.1
    { t with p := r.2 }

/-- ASL (R102). -/
def execAsl (m : Operand) (s : State) : Host.Outcome State Fault Refusal :=
  .next (s.runSequential (.asl m) fun r t => t.writeBackShift m.mode r.ea (shiftLeft t.p r.val false))

/-- LSR (R103). -/
def execLsr (m : Operand) (s : State) : Host.Outcome State Fault Refusal :=
  .next (s.runSequential (.lsr m) fun r t => t.writeBackShift m.mode r.ea (shiftRight t.p r.val false))

/-- ROL: the old Carry enters bit 0 (R104). -/
def execRol (m : Operand) (s : State) : Host.Outcome State Fault Refusal :=
  .next (s.runSequential (.rol m) fun r t => t.writeBackShift m.mode r.ea (shiftLeft t.p r.val true))

/-- ROR: the old Carry enters bit 7 (R105). -/
def execRor (m : Operand) (s : State) : Host.Outcome State Fault Refusal :=
  .next (s.runSequential (.ror m) fun r t => t.writeBackShift m.mode r.ea (shiftRight t.p r.val true))

end Sys2Proof.Machine
end

