-- ==== Sys2Proof/Machine/StackOps.lean ====
section
/-! DEFINITION. Push and pop of processor state (46_stack_ops.md R125 to R128). -/

namespace Sys2Proof.Machine

/-- PHA (R125). -/
def execPha (s : State) : Host.Outcome State Fault Refusal :=
  .next (s.runSequential .pha fun _ t => t.push t.a)

/-- PLA: Z and N from the popped byte (R126). -/
def execPla (s : State) : Host.Outcome State Fault Refusal :=
  .next (s.runSequential .pla fun _ t => t.pop.2.setRegisterA t.pop.1)

/-- PHP: the pushed byte has B forced to 1; the register's B is unchanged (R127; log 23). -/
def execPhp (s : State) : Host.Outcome State Fault Refusal :=
  .next (s.runSequential .php fun _ t => t.push (t.p.toByte ||| maskB))

/-- PLP: every flag from the popped byte, U forced to 1 and B to 0 (R128). -/
def execPlp (s : State) : Host.Outcome State Fault Refusal :=
  .next (s.runSequential .plp fun _ t => { t.pop.2 with p := Flags.ofByte ((t.pop.1 ||| maskU) &&& ~~~maskB) })

end Sys2Proof.Machine
end

