-- ==== Sys2Proof/Machine/Transfer.lean ====
section
/-! DEFINITION. Register transfers (44_transfers.md R112 to R117). -/

namespace Sys2Proof.Machine

/-- TAX (R112). -/
def execTax (s : State) : Host.Outcome State Fault Refusal :=
  .next (s.runSequential .tax fun _ t => t.setRegisterX t.a)

/-- TXA (R113). -/
def execTxa (s : State) : Host.Outcome State Fault Refusal :=
  .next (s.runSequential .txa fun _ t => t.setRegisterA t.x)

/-- TAY (R114). -/
def execTay (s : State) : Host.Outcome State Fault Refusal :=
  .next (s.runSequential .tay fun _ t => t.setRegisterY t.a)

/-- TYA (R115). -/
def execTya (s : State) : Host.Outcome State Fault Refusal :=
  .next (s.runSequential .tya fun _ t => t.setRegisterA t.y)

/-- TSX (R116). -/
def execTsx (s : State) : Host.Outcome State Fault Refusal :=
  .next (s.runSequential .tsx fun _ t => t.setRegisterX t.sp)

/-- TXS: no flag (R117). -/
def execTxs (s : State) : Host.Outcome State Fault Refusal :=
  .next (s.runSequential .txs fun _ t => { t with sp := t.x })

end Sys2Proof.Machine
end

