-- ==== Sys2Proof/Machine/Fetch.lean ====
section
/-! DEFINITION. The fetch of the program-counter sequencer (30_encoding.md R84, R86, R87), and the placing of instruction
bytes where it fetches. -/

namespace Sys2Proof.Machine

/-- One operand byte: read where the instruction's length calls for it, else not fetched and 0 (R84; log 21). -/
def State.fetchOperand (s : State) (wanted : Bool) (addr : Word) : Byte × State :=
  if wanted then s.memRead addr else (0, s)

/-- Fetch: the opcode byte at PC, then the operand bytes its length calls for, at consecutive addresses modulo 65536 (R84,
R86). -/
def State.fetch (s : State) : Instr × State :=
  let op := s.memRead s.pc
  let len := lengthOf s.cfg.stdExtras op.1
  let ol := op.2.fetchOperand (2 ≤ len) (s.pc + 1)
  let oh := ol.2.fetchOperand (len = 3) (s.pc + 2)
  (instrOf s.cfg.stdExtras op.1 ol.1 oh.1, oh.2)

/-- The addresses the longest instruction at PC occupies. -/
def State.fetchWindow (s : State) : List Word := [s.pc, s.pc + 1, s.pc + 2]

/-- `s` ready to fetch the three bytes `b0 b1 b2` in its very next step: they stand in plain RAM at PC, no other command is
before the next `Step`, and FAULT is clear (log 14). -/
def State.placeAtPc (s : State) (b0 b1 b2 : Byte) : State :=
  { s with
    mem := ((s.mem.write s.pc.toNat b0).write (s.pc + 1).toNat b1).write (s.pc + 2).toNat b2
    opaqueRegions := s.opaqueRegions.filter fun r => !(s.fetchWindow.any r.covers)
    commands := s.commands.dropWhile (· != .step)
    fault := none }

end Sys2Proof.Machine
end

