-- ==== Sys2Proof/Machine/Step.lean ====
section
/-! DEFINITION. One step of the machine: the driver's next command (00_scope.md R6). -/

namespace Sys2Proof.Machine

/-- The `Step` command: nothing while FAULT is set, else fetch and run one instruction (30_encoding.md R86). -/
def stepCommand (s : State) : Host.Outcome State Fault Refusal :=
  if s.fault.isSome then .next s else exec s.fetch.1 s.fetch.2

/-- One step: take the oldest pending command of the driver and do it; with none pending the driver issues `Step`
(00_scope.md R6; log 8). -/
def step (s : State) : Host.Outcome State Fault Refusal :=
  match s.commands with
  | [] => stepCommand s
  | .step :: rest => stepCommand { s with commands := rest }
  | .reset :: rest => .next (State.resetSequence { s with commands := rest })
  | .interrupt target :: rest => exec (.jmi target) { s with commands := rest }

/-- `s` with the table word `w` of `nbits` bits, the bits above it 0, stored where the next step fetches (log 14). -/
def State.withFetchWord (s : State) (nbits w : Nat) : State :=
  let v := w % 2 ^ nbits
  s.placeAtPc (byteAt v 0) (byteAt v 1) (byteAt v 2)

end Sys2Proof.Machine
end

