-- ==== Sys2Proof/Safety.lean ====
section
/-! DEFINITION. What a safe run is, and the invariant of the machine's states, in the terms the claims use. -/

namespace Sys2Proof.Machine

/-- No IllegalOpcode is recorded: the only abnormal exit is the fatal illegal-opcode condition (60_exceptions.md R157). -/
def State.Safe (s : State) : Prop := s.fault = none

/-- A recorded fault names the address PC still holds, and an opcode byte that is Null (10_state.md R42, 49_control.md
R152). -/
def State.faultConsistent (s : State) : Bool :=
  match s.fault with
  | none => true
  | some f => decide (f.pc = s.pc) && isNullByte s.cfg.stdExtras f.opcode

/-- What holds at reset and every step keeps: memory is canonical, U reads 1 (10_state.md R34), and a recorded fault names
the opcode at PC. -/
structure State.Inv (s : State) : Prop where
  memoryCanonical : s.mem.wf = true
  ignoredFlagSet : s.p.u = true
  faultNamesNull : s.faultConsistent = true

end Sys2Proof.Machine
end

