-- ==== Sys2Proof/Certificates/Slice0/Obligations.lean ====
section
/-! DEFINITION. The statements for the provers, each a claim about the machine in terms of the spec's rules. What they leave
to one another: CYC is `CyclesOfEveryInstruction`, LATCH the `…ModeResolution` statements, the history
`AccessesOfEveryInstruction`; a statement of one instruction's result takes these three from the state it ends in. The
lists by constructor below (`executeAccesses`, `writesC` and the like) compute at a constructor: use `rfl` or `show` there. -/

namespace Sys2Proof.Claims

open Machine

/-- `s` with what every instruction of the decode table accounts for (CYC, LATCH, the port's history) as `t` has it. -/
def accounted (s t : State) : State := { s with cyc := t.cyc, latch := t.latch, bus := t.bus }

/-- What a read of `addr` returns once the memory map has seen the history `h`. -/
def answer (s : State) (h : List Access) (addr : Word) : Byte := State.peek { s with bus := h } addr

/-- The instructions an addressing mode resolves: all but Null, which faults before, and JMI, which is a command. -/
def isResolved : Instr → Bool
  | .null _ | .jmi _ => false
  | _ => true

/-- PC past an instruction of mode `m`. -/
def past (s : State) (m : Mode) : Word := s.pc + BitVec.ofNat 16 m.length

/-- Z and N of a byte (00_scope.md R20). -/
def zn (p : Flags) (v : Byte) : Flags := { p with z := decide (v.toNat = 0), n := decide (128 ≤ v.toNat) }

/-- The status byte: N V U B D I Z C from bit 7 to bit 0, written out as weights (10_state.md R28; log 12). -/
def statusByte (p : Flags) : Byte :=
  BitVec.ofNat 8
    (128 * p.n.toNat + 64 * p.v.toNat + 32 * p.u.toNat + 16 * p.b.toNat + 8 * p.d.toNat + 4 * p.i.toNat + 2 * p.z.toNat +
      p.c.toNat)

/-- SetP: every flag from its bit of the byte, by the weight of the bit (10_state.md R28; log 12). -/
def flagsFrom (b : Byte) : Flags where
  n := decide (b.toNat / 128 % 2 = 1)
  v := decide (b.toNat / 64 % 2 = 1)
  u := decide (b.toNat / 32 % 2 = 1)
  b := decide (b.toNat / 16 % 2 = 1)
  d := decide (b.toNat / 8 % 2 = 1)
  i := decide (b.toNat / 4 % 2 = 1)
  z := decide (b.toNat / 2 % 2 = 1)
  c := decide (b.toNat % 2 = 1)

/-- The flags of a comparison (40_alu_flag_helpers.md R93). -/
def compared (p : Flags) (r v : Byte) : Flags :=
  { p with
    z := decide (r.toNat = v.toNat)
    c := decide (v.toNat ≤ r.toNat)
    n := decide (128 ≤ ((r.toNat : Int) - v.toNat) % 256) }

/-- A and the flags after adding `v` and Carry to `a` (40_alu_flag_helpers.md R94). -/
def added (p : Flags) (a v : Byte) : Byte × Flags :=
  let sum := a.toNat + v.toNat + p.c.toNat
  let t := BitVec.ofNat 8 sum
  (t, zn { p with c := decide (0xFF < sum), v := decide (((a ^^^ t) &&& (v ^^^ t) &&& 0x80).toNat ≠ 0) } t)

/-- Reads of RAM at every address but `addrs` give in `t` what they gave in `s`. -/
def ramSameOutside (s t : State) (addrs : List Word) : Prop :=
  ∀ b : Word, b ∉ addrs → t.mem.read b.toNat = s.mem.read b.toNat

/-- RAM holds `v` at `addr`, unless the memory map answers for that address itself. -/
def ramHolds (s t : State) (addr : Word) (v : Byte) : Prop :=
  s.isOpaque addr = false → t.mem.read addr.toNat = v

/-- The stack page is plain RAM. -/
def plainStack (s : State) : Prop := ∀ q : Byte, s.isOpaque (stackAddr q) = false

/-- An Encoding line of eight modes, in the rules' order (41_load_store.md R95). -/
def eightModes (imm zp zpX abs absX absY indX indY : Byte) : List (Mode × Byte) :=
  [(.immediate, imm), (.zeroPage, zp), (.zeroPageX, zpX), (.absolute, abs), (.absoluteX, absX), (.absoluteY, absY),
   (.indexedIndirectX, indX), (.indirectIndexedY, indY)]

/-- An Encoding line of zp, zp,X, abs and abs,X (43_inc_dec.md R106). -/
def fourModes (zp zpX abs absX : Byte) : List (Mode × Byte) :=
  [(.zeroPage, zp), (.zeroPageX, zpX), (.absolute, abs), (.absoluteX, absX)]

/-- The reads of an instruction's own bytes, newest first (30_encoding.md R84). -/
def fetchReads (pc : Word) (len : Nat) : List Access :=
  (List.range len).reverse.map fun k => .read (pc + BitVec.ofNat 16 k)

/-- The reads of a mode's resolution, newest first, in terms of the address it resolves to (30_encoding.md R71 to R83). -/
def resolutionReads (s : State) (i : Instr) (ea : Word) : List Access :=
  let second (z : Byte) : Word := if s.cfg.zpPointerWrap then zext16 (z + 1) else zext16 z + 1
  match i.operand with
  | .implied | .accumulator | .immediate _ | .relative _ => []
  | .zeroPage _ | .zeroPageX _ | .zeroPageY _ | .absoluteX _ | .absoluteY _ => [.read ea]
  | .absolute _ =>
    match i with
    | .sta _ | .stx _ | .sty _ | .jmp _ | .jsr _ => []
    | _ => [.read ea]
  | .indirect ow => [.read (if loByte ow = 0xFF then joinBytes (hiByte ow) 0 else ow + 1), .read ow]
  | .indexedIndirectX ol => [.read ea, .read (second (ol + s.x)), .read (zext16 (ol + s.x))]
  | .indirectIndexedY ol => [.read ea, .read (second ol), .read (zext16 ol)]

/-- The accesses of the execute phase, newest first: the single write of a store or read-modify-write, the pushes, the
pops, the vector reads. `t` is the state the instruction ends in. -/
def executeAccesses (s t : State) (i : Instr) : List Access :=
  let at_ (k : Byte) : Word := stackAddr (s.sp + k)
  let below (k : Byte) : Word := stackAddr (s.sp - k)
  let ret := s.pc + 2
  match i with
  | .sta _ => [.write t.latch.ea s.a]
  | .stx _ => [.write t.latch.ea s.x]
  | .sty _ => [.write t.latch.ea s.y]
  | .asl m => if m = .accumulator then [] else [.write t.latch.ea (shiftLeft s.p t.latch.val false).1]
  | .lsr m => if m = .accumulator then [] else [.write t.latch.ea (shiftRight s.p t.latch.val false).1]
  | .rol m => if m = .accumulator then [] else [.write t.latch.ea (shiftLeft s.p t.latch.val true).1]
  | .ror m => if m = .accumulator then [] else [.write t.latch.ea (shiftRight s.p t.latch.val true).1]
  | .inc _ => [.write t.latch.ea (t.latch.val + 1)]
  | .dec _ => [.write t.latch.ea (t.latch.val - 1)]
  | .pha => [.write (below 0) s.a]
  | .php => [.write (below 0) (s.p.toByte ||| 0x10)]
  | .pla | .plp => [.read (at_ 1)]
  | .jsr _ => [.write (below 1) (loByte ret), .write (below 0) (hiByte ret)]
  | .rts => [.read (at_ 2), .read (at_ 1)]
  | .rti => [.read (at_ 3), .read (at_ 2), .read (at_ 1)]
  | .brk =>
    [.read 0xFFFF, .read 0xFFFE, .write (below 2) (s.p.toByte ||| 0x10), .write (below 1) (loByte ret),
     .write (below 0) (hiByte ret)]
  | .jmi _ => [.write (below 2) s.p.toByte, .write (below 1) (loByte s.pc), .write (below 0) (hiByte s.pc)]
  | _ => []

/-- The extra cycles of a cycle-sensitive pairing whose index leaves the page (30_encoding.md R72, R78, R79). -/
def penaltyOf (s : State) (i : Instr) (ea : Word) : Nat :=
  let readClass : Bool :=
    match i with
    | .lda _ | .ldx _ | .ldy _ | .and _ | .ora _ | .eor _ | .adc _ | .sbc _ | .cmp _ | .cpx _ | .cpy _ | .bit _ => true
    | _ => false
  let crossed : Bool :=
    match i.operand with
    | .absoluteX ow | .absoluteY ow => hiByte ea != hiByte ow
    | .indirectIndexedY _ => hiByte ea != hiByte (ea - zext16 s.y)
    | _ => false
  if readClass && crossed then s.cfg.pageCrossPenalty else 0

/-- The step of `s` pushes P: an `Interrupt` or a `Step` that runs PHP or BRK, with no fault. -/
def stepPushesP (s : State) : Prop :=
  s.fault = none ∧
    match s.commands with
    | .reset :: _ => False
    | .interrupt _ :: _ => True
    | .step :: _ | [] => s.fetch.1 = .php ∨ s.fetch.1 = .brk

/-- `s` with Interrupt-disable as given. -/
def withI (s : State) (b : Bool) : State := { s with p := { s.p with i := b } }

/-- `s` with Decimal as given. -/
def withD (s : State) (b : Bool) : State := { s with p := { s.p with d := b } }

/-- The writers of Carry (10_state.md R29). -/
def writesC : Instr → Bool
  | .adc _ | .sbc _ | .cmp _ | .cpx _ | .cpy _ | .asl _ | .rol _ | .lsr _ | .ror _ | .sec | .clc | .plp | .rti => true
  | _ => false

/-- The users of SetZN (10_state.md R30). -/
def usesSetZN : Instr → Bool
  | .lda _ | .ldx _ | .ldy _ | .tax | .tay | .txa | .tya | .tsx | .pla | .inc _ | .dec _ | .inx | .iny | .dex | .dey => true
  | .and _ | .ora _ | .eor _ | .adc _ | .sbc _ | .asl _ | .lsr _ | .rol _ | .ror _ | .cmp _ | .cpx _ | .cpy _ => true
  | _ => false

/-- The writers of Zero and of Sign (10_state.md R30, R36). -/
def writesZN (i : Instr) : Bool :=
  usesSetZN i || match i with
  | .bit _ | .plp | .rti => true
  | _ => false

/-- The writers of Interrupt-disable (10_state.md R31). -/
def writesI : Instr → Bool
  | .sei | .cli | .plp | .rti | .brk => true
  | _ => false

/-- The writers of Decimal (10_state.md R32). -/
def writesD : Instr → Bool
  | .sed | .cld | .plp | .rti => true
  | _ => false

/-- The writers of Break and of Ignored (10_state.md R33, R34). -/
def writesBU : Instr → Bool
  | .plp | .rti => true
  | _ => false

/-- The writers of Overflow (10_state.md R35). -/
def writesV : Instr → Bool
  | .adc _ | .sbc _ | .bit _ | .clv | .plp | .rti => true
  | _ => false

/-- The writers of A (10_state.md R23). -/
def writesA : Instr → Bool
  | .lda _ | .txa | .tya | .pla | .and _ | .ora _ | .eor _ | .adc _ | .sbc _ => true
  | .asl m | .lsr m | .rol m | .ror m => decide (m = .accumulator)
  | _ => false

/-- The writers of X (10_state.md R23). -/
def writesX : Instr → Bool
  | .ldx _ | .tax | .tsx | .inx | .dex => true
  | _ => false

/-- The writers of Y (10_state.md R23). -/
def writesY : Instr → Bool
  | .ldy _ | .tay | .iny | .dey => true
  | _ => false

/-- The instructions that change S: Push and Pop's users, and TXS (10_state.md R25). -/
def writesS : Instr → Bool
  | .pha | .php | .pla | .plp | .jsr _ | .rts | .rti | .jmi _ | .brk | .txs => true
  | _ => false

/-- The instructions that write memory: the stores, INC, DEC, the shifts on memory, and the users of Push. -/
def writesMemory : Instr → Bool
  | .sta _ | .stx _ | .sty _ | .inc _ | .dec _ | .pha | .php | .jsr _ | .jmi _ | .brk => true
  | .asl m | .lsr m | .rol m | .ror m => decide (m ≠ .accumulator)
  | _ => false

/-- Pop `n` bytes: the bytes in the order popped, and the state after. -/
def popMany : Nat → State → List Byte × State
  | 0, s => ([], s)
  | n + 1, s =>
    let r := popMany n s.pop.2
    (s.pop.1 :: r.1, r.2)

end Sys2Proof.Claims

open Sys2Proof Sys2Proof.Machine Sys2Proof.Claims

/-! ## Encoding -/

/-- 30_encoding.md R64, R65, R67: the bytes of every well-formed instruction decode to it, with every operand, and what
follows is left. -/
def Obligations.DecodeOfEncodeIsIdentity : Prop :=
  ∀ (x : Bool) (i : Instr) (bs rest : List Byte), i.wellFormed x = true → encode i = some bs →
    decode x (bs ++ rest) = .ok (i, rest)

/-- 30_encoding.md R64 to R67: whatever bytes decode to, is well formed, and its encoding is the bytes that were taken. -/
def Obligations.EncodeOfDecodeIsIdentity : Prop :=
  ∀ (x : Bool) (bytes rest : List Byte) (i : Instr), decode x bytes = .ok (i, rest) →
    i.wellFormed x = true ∧ ∃ bs, encode i = some bs ∧ bytes = bs ++ rest

/-- 30_encoding.md R68: with STD_EXTRAS false the 108 bytes of the list decode to Null, with it true the 105 without 00, 58
and EA; every other byte decodes to something else, whatever its operand bytes (log 10, 13). -/
def Obligations.NullBytesAreTheListedOnes : Prop :=
  (∀ (x : Bool) (op ol oh : Byte), (∃ b, instrOf x op ol oh = .null b) ↔ isNullByte x op = true) ∧
  (∀ (x : Bool) (op ol oh : Byte), isNullByte x op = true → instrOf x op ol oh = .null op) ∧
  (alwaysNull ++ extraBytes).Nodup ∧ (alwaysNull ++ extraBytes).length = 108 ∧ alwaysNull.length = 105

/-- 41_load_store.md to 49_control.md, Encoding lines: words written out from them decode to their instructions (log 13). -/
def Obligations.SampleWordsDecode : Prop :=
  decode false [0xBD, 0xF0, 0x12] = .ok (.lda (.absoluteX 0x12F0), []) ∧
  decode false [0x6A, 0x99] = .ok (.ror .accumulator, [0x99]) ∧
  decode false [0xD6, 0x10] = .ok (.dec (.zeroPageX 0x10), []) ∧
  decode false [0x9A] = .ok (.txs, []) ∧ decode false [0xB8] = .ok (.clv, []) ∧ decode false [0x28] = .ok (.plp, []) ∧
  decode false [0x31, 0x86] = .ok (.and (.indirectIndexedY 0x86), []) ∧
  decode false [0xE1, 0x20] = .ok (.sbc (.indexedIndirectX 0x20), []) ∧
  decode false [0x6C, 0xFF, 0x10] = .ok (.jmp (.indirect 0x10FF), []) ∧
  decode false [0xD0, 0xF9] = .ok (.bne 0xF9, []) ∧
  decode false [0xEA] = .ok (.null 0xEA, []) ∧ decode true [0xEA] = .ok (.nop, []) ∧
  decode false [0x20, 0x00] = .error (.truncated 0x20)

/-- The Encoding lines of 41_load_store.md to 49_control.md (the opcode map: log 13), for the instructions whose statements
do not repeat theirs: the byte each mode of each instruction has, then the operand bytes. -/
def Obligations.EncodingLinesOfTheRules : Prop :=
  ∀ (m : Operand) (op : Byte) (f : Operand → Instr) (line : List (Mode × Byte)), (m.mode, op) ∈ line →
    (f = .lda ∧ line = eightModes 0xA9 0xA5 0xB5 0xAD 0xBD 0xB9 0xA1 0xB1 ∨
     f = .ldx ∧ line =
       [(.immediate, 0xA2), (.zeroPage, 0xA6), (.zeroPageY, 0xB6), (.absolute, 0xAE), (.absoluteY, 0xBE)] ∨
     f = .ldy ∧ line =
       [(.immediate, 0xA0), (.zeroPage, 0xA4), (.zeroPageX, 0xB4), (.absolute, 0xAC), (.absoluteX, 0xBC)] ∨
     f = .sta ∧ line = (eightModes 0 0x85 0x95 0x8D 0x9D 0x99 0x81 0x91).tail ∨
     f = .stx ∧ line = [(.zeroPage, 0x86), (.zeroPageY, 0x96), (.absolute, 0x8E)] ∨
     f = .sty ∧ line = [(.zeroPage, 0x84), (.zeroPageX, 0x94), (.absolute, 0x8C)] ∨
     f = .asl ∧ line = (.accumulator, 0x0A) :: fourModes 0x06 0x16 0x0E 0x1E ∨
     f = .lsr ∧ line = (.accumulator, 0x4A) :: fourModes 0x46 0x56 0x4E 0x5E ∨
     f = .rol ∧ line = (.accumulator, 0x2A) :: fourModes 0x26 0x36 0x2E 0x3E ∨
     f = .ror ∧ line = (.accumulator, 0x6A) :: fourModes 0x66 0x76 0x6E 0x7E ∨
     f = .inc ∧ line = fourModes 0xE6 0xF6 0xEE 0xFE ∨ f = .dec ∧ line = fourModes 0xC6 0xD6 0xCE 0xDE ∨
     f = .cmp ∧ line = eightModes 0xC9 0xC5 0xD5 0xCD 0xDD 0xD9 0xC1 0xD1 ∨
     f = .cpx ∧ line = [(.immediate, 0xE0), (.zeroPage, 0xE4), (.absolute, 0xEC)] ∨
     f = .cpy ∧ line = [(.immediate, 0xC0), (.zeroPage, 0xC4), (.absolute, 0xCC)] ∨
     f = .and ∧ line = eightModes 0x29 0x25 0x35 0x2D 0x3D 0x39 0x21 0x31 ∨
     f = .ora ∧ line = eightModes 0x09 0x05 0x15 0x0D 0x1D 0x19 0x01 0x11 ∨
     f = .eor ∧ line = eightModes 0x49 0x45 0x55 0x4D 0x5D 0x59 0x41 0x51 ∨
     f = .bit ∧ line = [(.zeroPage, 0x24), (.absolute, 0x2C)] ∨
     f = .adc ∧ line = eightModes 0x69 0x65 0x75 0x6D 0x7D 0x79 0x61 0x71 ∨
     f = .sbc ∧ line = eightModes 0xE9 0xE5 0xF5 0xED 0xFD 0xF9 0xE1 0xF1 ∨
     f = .jmp ∧ line = [(.absolute, 0x4C), (.indirect, 0x6C)]) →
    encode (f m) = some (op :: m.bytes)

/-! ## The step -/

/-- 30_encoding.md R84, R86: with a `Step` to do and no fault, the step reads the opcode byte at PC and the operand bytes
its length calls for, in that order and at consecutive addresses modulo 65536, and is `exec` of the instruction they
decode to, in the state that differs by the command taken and the reads the map has seen (log 8, 21). -/
def Obligations.StepRunsDecodedInstruction : Prop :=
  ∀ (s : State) (i : Instr) (rest : List Byte), s.fault = none → (s.commands = [] ∨ ∃ cs, s.commands = .step :: cs) →
    decode s.cfg.stdExtras
      [answer s s.bus s.pc, answer s (fetchReads s.pc 1 ++ s.bus) (s.pc + 1),
       answer s (fetchReads s.pc 2 ++ s.bus) (s.pc + 2)] = .ok (i, rest) →
    i.wellFormed s.cfg.stdExtras = true ∧
    step s = exec i { s with commands := s.commands.tail, bus := fetchReads s.pc i.length ++ s.bus }

/-- 60_exceptions.md R158: no other opcode or mode ever raises an error: every instruction but Null completes and leaves
FAULT as it was. Null completes too, and so does every step, because IllegalOpcode is a next state in which FAULT is set
(the model's reading of 10_state.md R42 and R155: log 15). -/
def Obligations.NoOtherConditionRaises : Prop :=
  (∀ (i : Instr) (s : State), (∀ b, i ≠ .null b) → ∃ t, exec i s = .next t ∧ t.fault = s.fault) ∧
  (∀ (b : Byte) (s : State), ∃ t, exec (.null b) s = .next t) ∧ ∀ s : State, ∃ t, step s = .next t

/-- 10_state.md R42, 60_exceptions.md R157 (the spec's decision 92 D28, log 15): while FAULT is set, `Step` and `Interrupt`
change nothing (but that the driver's command has been taken); `Reset`, and nothing else, clears FAULT. -/
def Obligations.FaultedCoreIgnoresStepAndInterrupt : Prop :=
  ∀ s : State, s.fault ≠ none →
    (s.commands = [] → step s = .next s) ∧
    (∀ (c : Command) (cs : List Command), c ≠ .reset → s.commands = c :: cs → step s = .next { s with commands := cs }) ∧
    ∀ cs : List Command, s.commands = .reset :: cs → ∃ t, step s = .next t ∧ t.fault = none

/-- 60_exceptions.md R155, R156, 10_state.md R42 (the spec's decision 92 D19, log 15): the step that raises IllegalOpcode has
read exactly one byte, the opcode at PC0, and sets only FAULT; and a step that sets FAULT was a `Step` whose opcode byte is
Null, and FAULT holds PC0 and that byte. -/
def Obligations.NullOpcodeAloneFaultsPrecisely : Prop :=
  (∀ s : State, s.fault = none → s.commands = [] → isNullByte s.cfg.stdExtras (answer s s.bus s.pc) = true →
    step s = .next { s with fault := some ⟨s.pc, answer s s.bus s.pc⟩, bus := .read s.pc :: s.bus }) ∧
  ∀ (s t : State) (f : IllegalOpcode), s.fault = none → step s = .next t → t.fault = some f →
    (s.commands = [] ∨ ∃ cs, s.commands = .step :: cs) ∧ f.pc = s.pc ∧ f.opcode = answer s s.bus s.pc ∧
    isNullByte s.cfg.stdExtras f.opcode = true

/-- The invariant: RAM is canonical, U reads 1 (10_state.md R34), a recorded fault names the Null opcode at PC (R42,
49_control.md R152). Every step keeps it, whatever the driver's commands, the parameters and the memory map. -/
def Obligations.StepKeepsInvariant : Prop :=
  ∀ s t : State, s.Inv → step s = .next t → t.Inv

/-- The state after reset meets the invariant. -/
def Obligations.ResetMeetsInvariant : Prop := State.reset.Inv

/-- 00_scope.md section 4 and R6, 20_memory.md R46 and R56: no step changes the parameters (held in the state: log 9) or which
addresses the memory map answers for (the model's choice, R46 leaves banking to the map: log 6); the history of accesses only
grows (log 7); the driver's commands are taken one at a time (log 8). -/
def Obligations.StepKeepsParametersAndHistory : Prop :=
  ∀ s t : State, step s = .next t →
    t.cfg = s.cfg ∧ t.opaqueRegions = s.opaqueRegions ∧ (∃ l, t.bus = l ++ s.bus) ∧ t.commands = s.commands.tail

/-- 10_state.md R40: CYC is monotonically increasing; no command but `Reset` lowers it. -/
def Obligations.CyclesNeverDecrease : Prop :=
  ∀ s t : State, (∀ cs, s.commands ≠ .reset :: cs) → step s = .next t → s.cyc ≤ t.cyc

/-- 70_reset_and_hazards.md R177, 30_encoding.md R86: an instruction of the decode table adds its BASE_CYCLES, and the page
crossing penalty where it is cycle-sensitive; a taken branch adds nothing; Null adds nothing; JMI adds JMI_CYCLES
(log 9, 22). -/
def Obligations.CyclesOfEveryInstruction : Prop :=
  (∀ (i : Instr) (op : Byte) (s : State), isResolved i = true → opcodeOf i = some op →
    ∃ t, exec i s = .next t ∧ t.cyc = s.cyc + s.cfg.baseCycles.getD op.toNat 0 + penaltyOf s i t.latch.ea) ∧
  (∀ (op : Byte) (s : State), ∃ t, exec (.null op) s = .next t ∧ t.cyc = s.cyc) ∧
  (∀ (target : Word) (s : State), s.fault = none →
    ∃ t, exec (.jmi target) s = .next t ∧ t.cyc = s.cyc + s.cfg.jmiCycles)

/-- 20_memory.md R55, 30_encoding.md R86: the accesses of every instruction after its fetch, in order. First the resolution's
reads, which STA, STX and STY make too but in Absolute mode (R71; log 21); then those of the execute phase: the write of a
store (41_load_store.md R98 to R100) or of a read-modify-write, which makes one (42, 43; log 21), the pushes and pops (R60,
R61; 46_stack_ops.md R125 to R128, PHP's forced B: log 23; 49_control.md R139 to R142, JMI's: log 18), and those of BRK
(R153; log 30). -/
def Obligations.AccessesOfEveryInstruction : Prop :=
  ∀ (i : Instr) (s : State), s.fault = none → ∃ t, exec i s = .next t ∧
    t.bus = executeAccesses s t i ++
      (if isResolved i then resolutionReads s i t.latch.ea else []) ++ s.bus

/-! ## The addressing modes -/

/-- 30_encoding.md R81, R77: Zero Page, and Zero Page,X and ,Y, whose index addition stays in page 0; each reads VAL at EA,
for STA, STX and STY too (R71, the spec's decision 92 D12: log 21), and makes no other access. -/
def Obligations.ZeroPageModeResolution : Prop :=
  ∀ (i : Instr) (s : State), isResolved i = true → ∃ t, exec i s = .next t ∧ t.latch = (s.prepare i).1 ∧
    ∀ ol : Byte,
      (i.operand = .zeroPage ol → t.latch.ea.toNat = ol.toNat) ∧
      (i.operand = .zeroPageX ol → t.latch.ea.toNat = (ol.toNat + s.x.toNat) % 256) ∧
      (i.operand = .zeroPageY ol → t.latch.ea.toNat = (ol.toNat + s.y.toNat) % 256) ∧
      (i.operand = .zeroPage ol ∨ i.operand = .zeroPageX ol ∨ i.operand = .zeroPageY ol →
        t.latch.val = answer s s.bus t.latch.ea ∧ (s.prepare i).2.bus = .read t.latch.ea :: s.bus)

/-- 30_encoding.md R74, R78: Absolute, which reads but for STA, STX, STY, JMP and JSR (R71; log 21), and Absolute,X and ,Y,
which wrap modulo 65536 (log 19). -/
def Obligations.AbsoluteModeResolution : Prop :=
  ∀ (i : Instr) (s : State), isResolved i = true → ∃ t, exec i s = .next t ∧ ∀ ow : Word,
    (i.operand = .absolute ow → t.latch.ea = ow ∧
      t.latch.val = match i with
        | .sta _ | .stx _ | .sty _ | .jmp _ | .jsr _ => 0
        | _ => answer s s.bus ow) ∧
    (i.operand = .absoluteX ow →
      t.latch.ea.toNat = (ow.toNat + s.x.toNat) % 65536 ∧ t.latch.val = answer s s.bus t.latch.ea) ∧
    (i.operand = .absoluteY ow →
      t.latch.ea.toNat = (ow.toNat + s.y.toNat) % 65536 ∧ t.latch.val = answer s s.bus t.latch.ea)

/-- 30_encoding.md R76, R79, 20_memory.md R51: the zero-page pointer modes, for both values of ZP_POINTER_WRAP: the pointer's
low byte, then its high byte, then VAL; (zp,X) wraps before the pointer is read, (zp),Y adds Y after (log 19, 20). -/
def Obligations.PointerModeResolution : Prop :=
  ∀ (i : Instr) (s : State), isResolved i = true → ∃ t, exec i s = .next t ∧ ∀ ol z : Byte,
    let lo := zext16 z
    let hi : Word := BitVec.ofNat 16 (if s.cfg.zpPointerWrap then (z.toNat + 1) % 256 else z.toNat + 1)
    let pointer := (answer s (.read lo :: s.bus) hi).toNat * 256 + (answer s s.bus lo).toNat
    (i.operand = .indexedIndirectX ol → z.toNat = (ol.toNat + s.x.toNat) % 256 →
      t.latch.ea.toNat = pointer ∧ t.latch.val = answer s (.read hi :: .read lo :: s.bus) t.latch.ea) ∧
    (i.operand = .indirectIndexedY ol → z = ol →
      t.latch.ea.toNat = (pointer + s.y.toNat) % 65536 ∧
      t.latch.val = answer s (.read hi :: .read lo :: s.bus) t.latch.ea)

/-- 30_encoding.md R75: Indirect mode reads its pointer's low byte at operandWord and its high byte at the next address, but
at offset 0x00 of the same page when operandLow is 0xFF (the order of the reads and the next address: log 21); JMP (abs),
opcode 0x6C (log 13), which alone uses the mode, goes there (49_control.md R138). -/
def Obligations.JmpIndirectKeepsPageWrapBug : Prop :=
  (∀ (x : Bool) (op : Byte), modeOf x op = .indirect ↔ op = 0x6C) ∧
  (∀ ow : Word, encode (.jmp (.indirect ow)) = some [0x6C, loByte ow, hiByte ow]) ∧
  ∀ (ow : Word) (s : State), ∃ t, exec (.jmp (.indirect ow)) s = .next t ∧
    let hi : Word := if ow.toNat % 256 = 0xFF then BitVec.ofNat 16 (ow.toNat - 0xFF) else ow + 1
    t.pc.toNat = (answer s (.read ow :: s.bus) hi).toNat * 256 + (answer s s.bus ow).toNat ∧
    t.latch = ⟨t.pc, 0⟩ ∧ t.bus = .read hi :: .read ow :: s.bus

/-- 30_encoding.md R73, R82, R83: Accumulator, Immediate and Implied, which access no memory. -/
def Obligations.ModesWithoutMemoryResolution : Prop :=
  ∀ (i : Instr) (s : State), isResolved i = true → ∃ t, exec i s = .next t ∧ t.latch = (s.prepare i).1 ∧
    (i.operand = .implied → t.latch = ⟨0, 0⟩ ∧ (s.prepare i).2.bus = s.bus) ∧
    (i.operand = .accumulator → t.latch.ea.toNat = s.a.toNat ∧ t.latch.val = s.a ∧ (s.prepare i).2.bus = s.bus) ∧
    ∀ ol : Byte, i.operand = .immediate ol →
      t.latch.ea.toNat = ol.toNat ∧ t.latch.val = ol ∧ (s.prepare i).2.bus = s.bus

/-- 30_encoding.md R80 (no penalty: log 22): Relative, whose offset counts from the byte after the branch and wraps at
0xFFFF; the resolution reads no memory and adds no cycle but the base cost. -/
def Obligations.RelativeModeResolution : Prop :=
  ∀ (i : Instr) (s : State) (ol : Byte), isResolved i = true → i.operand = .relative ol →
    ∃ t, exec i s = .next t ∧ (t.latch.ea.toNat : Int) = (s.pc.toNat + ol.toInt + 2) % 65536 ∧ t.latch.val = 0 ∧
      t.latch = (s.prepare i).1 ∧ (s.prepare i).2.bus = s.bus ∧ (s.prepare i).2.cyc = s.cyc + s.baseCyclesOf i

/-! ## The helpers and the stack -/

/-- 40_alu_flag_helpers.md R90, R92, R93: setRegister, over every integer; shiftLeft; compare. Each writes the register and
the flags it names, and nothing else. -/
def Obligations.HelperResults : Prop :=
  (∀ (s : State) (n : Int),
    let v := BitVec.ofInt 8 n
    let flags := { s.p with z := decide (n % 256 = 0), n := decide (128 ≤ n % 256) }
    s.setRegisterA v = { s with a := v, p := flags } ∧ s.setRegisterX v = { s with x := v, p := flags } ∧
    s.setRegisterY v = { s with y := v, p := flags }) ∧
  (∀ (p : Flags) (v : Byte) (rotate : Bool),
    (shiftLeft p v rotate).1.toNat = (v.toNat * 2 + (if rotate then p.c.toNat else 0)) % 256 ∧
    (shiftLeft p v rotate).2 = zn { p with c := decide (128 ≤ v.toNat) } (shiftLeft p v rotate).1) ∧
  ∀ (p : Flags) (v r : Byte), p.compare v r = compared p r v

/-- 20_memory.md R60, R61: Push writes at 0x0100 + S, then decrements S modulo 256; Pop increments S modulo 256, then reads
at 0x0100 + S. Nothing else changes. -/
def Obligations.StackPrimitiveResults : Prop :=
  (∀ (s : State) (v : Byte), s.mem.wf = true →
    let addr := BitVec.ofNat 16 (0x100 + s.sp.toNat)
    s.push v = { s with
      sp := BitVec.ofNat 8 (s.sp.toNat + 255), mem := (s.push v).mem, bus := .write addr v :: s.bus } ∧
    ramHolds s (s.push v) addr v ∧ ramSameOutside s (s.push v) [addr]) ∧
  ∀ s : State,
    let top := (s.sp.toNat + 1) % 256
    let addr := BitVec.ofNat 16 (0x100 + top)
    s.pop.1 = answer s s.bus addr ∧ s.pop.2 = { s with sp := BitVec.ofNat 8 top, bus := .read addr :: s.bus }

/-- 10_state.md R25: S addresses the stack page and never leaves it; only Push and Pop's users, TXS and reset change S; only
TSX, Push and Pop read it. -/
def Obligations.StackPointerUse : Prop :=
  (∀ q : Byte, (stackAddr q).toNat = 0x100 + q.toNat) ∧
  (∀ (i : Instr) (s t : State), exec i s = .next t → writesS i = false → t.sp = s.sp) ∧
  (∀ s t : State, step s = .next t → t.sp ≠ s.sp →
    (∃ cs, s.commands = .reset :: cs) ∨ (∃ target cs, s.commands = .interrupt target :: cs) ∨
    writesS s.fetch.1 = true) ∧
  (∀ (i : Instr) (s : State) (q : Byte), writesS i = false → i ≠ .tsx →
    ∃ t, exec i s = .next t ∧ exec i { s with sp := q } = .next { t with sp := q }) ∧
  ∀ (s : State) (q : Byte), exec .txs { s with sp := q } = exec .txs s

/-! ## The instructions -/

/-- 41_load_store.md R95 to R97: LDA, LDX and LDY, in every mode: the register takes VAL, Z and N follow it, nothing else but
PC changes. -/
def Obligations.LoadResults : Prop :=
  ∀ (m : Operand) (s : State),
    (∃ t, exec (.lda m) s = .next t ∧
      t = { accounted s t with a := t.latch.val, p := zn s.p t.latch.val, pc := past s m.mode }) ∧
    (∃ t, exec (.ldx m) s = .next t ∧
      t = { accounted s t with x := t.latch.val, p := zn s.p t.latch.val, pc := past s m.mode }) ∧
    (∃ t, exec (.ldy m) s = .next t ∧
      t = { accounted s t with y := t.latch.val, p := zn s.p t.latch.val, pc := past s m.mode })

/-- 41_load_store.md R98 to R100: STA, STX and STY, in every mode: the byte at EA takes the register, no register or flag
changes, and every other byte of RAM reads as before. EA is the address the resolution of the instruction gives. -/
def Obligations.StoreResults : Prop :=
  ∀ (m : Operand) (s : State) (i : Instr) (v : Byte), s.mem.wf = true →
    (i, v) ∈ [(Instr.sta m, s.a), (Instr.stx m, s.x), (Instr.sty m, s.y)] →
    ∃ t, exec i s = .next t ∧ t = { accounted s t with mem := t.mem, pc := past s m.mode } ∧
      ∀ ea : Word, (s.prepare i).1.ea = ea →
        t.latch.ea = ea ∧ ramHolds s t ea v ∧ ramSameOutside s t [ea] ∧ (s.isOpaque ea = true → t.mem = s.mem)

/-- 42_shift_rotate.md R101 to R105, Accumulator mode: A and C, Z, N, as integers; nothing else but PC changes. -/
def Obligations.AccumulatorShiftResults : Prop :=
  ∀ (s : State) (i : Instr) (result : Nat) (carry : Bool),
    (i, result, carry) ∈
      [(Instr.asl .accumulator, s.a.toNat * 2 % 256, decide (128 ≤ s.a.toNat)),
       (Instr.lsr .accumulator, s.a.toNat / 2, decide (s.a.toNat % 2 = 1)),
       (Instr.rol .accumulator, (s.a.toNat * 2 + s.p.c.toNat) % 256, decide (128 ≤ s.a.toNat)),
       (Instr.ror .accumulator, s.a.toNat / 2 + 128 * s.p.c.toNat, decide (s.a.toNat % 2 = 1))] →
    ∃ t, exec i s = .next t ∧ t.a.toNat = result ∧
      t = { accounted s t with a := t.a, p := zn { s.p with c := carry } t.a, pc := s.pc + 1 }

/-- 42_shift_rotate.md R101 to R105 in every mode but Accumulator: the byte at EA takes the shifted VAL; C, Z, N; no register;
every other byte of RAM reads as before. -/
def Obligations.MemoryShiftResults : Prop :=
  ∀ (m : Operand) (s : State) (i : Instr) (result : Nat) (carry : Bool) (v : Byte), s.mem.wf = true → m ≠ .accumulator →
    v = (s.prepare i).1.val →
    (i, result, carry) ∈
      [(Instr.asl m, v.toNat * 2 % 256, decide (128 ≤ v.toNat)),
       (Instr.lsr m, v.toNat / 2, decide (v.toNat % 2 = 1)),
       (Instr.rol m, (v.toNat * 2 + s.p.c.toNat) % 256, decide (128 ≤ v.toNat)),
       (Instr.ror m, v.toNat / 2 + 128 * s.p.c.toNat, decide (v.toNat % 2 = 1))] →
    ∃ t, exec i s = .next t ∧ t.latch.val = v ∧
      t = { accounted s t with mem := t.mem, p := zn { s.p with c := carry } (BitVec.ofNat 8 result), pc := past s m.mode } ∧
      ∀ ea : Word, (s.prepare i).1.ea = ea →
        t.latch.ea = ea ∧ ramHolds s t ea (BitVec.ofNat 8 result) ∧ ramSameOutside s t [ea]

/-- 43_inc_dec.md R106, R107: INC and DEC, in every mode: the byte at EA takes VAL plus or minus 1 modulo 256; Z and N; C, V
and the registers are unchanged; every other byte of RAM reads as before. -/
def Obligations.MemoryIncrementResults : Prop :=
  ∀ (m : Operand) (s : State) (i : Instr) (result : Nat), s.mem.wf = true →
    (i, result) ∈ [(Instr.inc m, ((s.prepare i).1.val.toNat + 1) % 256), (Instr.dec m, ((s.prepare i).1.val.toNat + 255) % 256)] →
    ∃ t, exec i s = .next t ∧ t.latch = (s.prepare i).1 ∧
      t = { accounted s t with mem := t.mem, p := zn s.p (BitVec.ofNat 8 result), pc := past s m.mode } ∧
      ∀ ea : Word, (s.prepare i).1.ea = ea →
        ramHolds s t ea (BitVec.ofNat 8 result) ∧ ramSameOutside s t [ea]

/-- 43_inc_dec.md R108 to R111: INX, INY, DEX and DEY wrap modulo 256, set Z and N, and change nothing else but PC. -/
def Obligations.RegisterIncrementResults : Prop :=
  (encode .inx = some [0xE8] ∧ encode .iny = some [0xC8] ∧ encode .dex = some [0xCA] ∧ encode .dey = some [0x88]) ∧
  ∀ s : State,
    (∃ t, exec .inx s = .next t ∧ t.x.toNat = (s.x.toNat + 1) % 256 ∧
      t = { accounted s t with x := t.x, p := zn s.p t.x, pc := s.pc + 1 }) ∧
    (∃ t, exec .iny s = .next t ∧ t.y.toNat = (s.y.toNat + 1) % 256 ∧
      t = { accounted s t with y := t.y, p := zn s.p t.y, pc := s.pc + 1 }) ∧
    (∃ t, exec .dex s = .next t ∧ t.x.toNat = (s.x.toNat + 255) % 256 ∧
      t = { accounted s t with x := t.x, p := zn s.p t.x, pc := s.pc + 1 }) ∧
    (∃ t, exec .dey s = .next t ∧ t.y.toNat = (s.y.toNat + 255) % 256 ∧
      t = { accounted s t with y := t.y, p := zn s.p t.y, pc := s.pc + 1 })

/-- 44_transfers.md R112 to R117: the transfers copy a register and set Z and N of the destination; TXS sets no flag. -/
def Obligations.TransferResults : Prop :=
  (encode .tax = some [0xAA] ∧ encode .txa = some [0x8A] ∧ encode .tay = some [0xA8] ∧ encode .tya = some [0x98] ∧
    encode .tsx = some [0xBA] ∧ encode .txs = some [0x9A]) ∧
  ∀ s : State,
    (∃ t, exec .tax s = .next t ∧ t = { accounted s t with x := s.a, p := zn s.p s.a, pc := s.pc + 1 }) ∧
    (∃ t, exec .txa s = .next t ∧ t = { accounted s t with a := s.x, p := zn s.p s.x, pc := s.pc + 1 }) ∧
    (∃ t, exec .tay s = .next t ∧ t = { accounted s t with y := s.a, p := zn s.p s.a, pc := s.pc + 1 }) ∧
    (∃ t, exec .tya s = .next t ∧ t = { accounted s t with a := s.y, p := zn s.p s.y, pc := s.pc + 1 }) ∧
    (∃ t, exec .tsx s = .next t ∧ t = { accounted s t with x := s.sp, p := zn s.p s.sp, pc := s.pc + 1 }) ∧
    (∃ t, exec .txs s = .next t ∧ t = { accounted s t with sp := s.x, pc := s.pc + 1 })

/-- 45_flag_ops.md R118 to R124: each sets or clears exactly one flag, and nothing else but PC changes; 0x58 is CLI only
under STD_EXTRAS (CLI: log 30). -/
def Obligations.FlagOperationResults : Prop :=
  (encode .sec = some [0x38] ∧ encode .clc = some [0x18] ∧ encode .clv = some [0xB8] ∧ encode .sei = some [0x78] ∧
    encode .sed = some [0xF8] ∧ encode .cld = some [0xD8] ∧
    (∀ ol oh, instrOf true 0x58 ol oh = .cli ∧ instrOf false 0x58 ol oh = .null 0x58)) ∧
  ∀ s : State,
    (∃ t, exec .sec s = .next t ∧ t = { accounted s t with p := { s.p with c := true }, pc := s.pc + 1 }) ∧
    (∃ t, exec .clc s = .next t ∧ t = { accounted s t with p := { s.p with c := false }, pc := s.pc + 1 }) ∧
    (∃ t, exec .clv s = .next t ∧ t = { accounted s t with p := { s.p with v := false }, pc := s.pc + 1 }) ∧
    (∃ t, exec .sei s = .next t ∧ t = { accounted s t with p := { s.p with i := true }, pc := s.pc + 1 }) ∧
    (∃ t, exec .sed s = .next t ∧ t = { accounted s t with p := { s.p with d := true }, pc := s.pc + 1 }) ∧
    (∃ t, exec .cld s = .next t ∧ t = { accounted s t with p := { s.p with d := false }, pc := s.pc + 1 }) ∧
    (∃ t, exec .cli s = .next t ∧ t = { accounted s t with p := { s.p with i := false }, pc := s.pc + 1 })

/-- 46_stack_ops.md R125, R127, 20_memory.md R60: PHA pushes A, PHP pushes P with bit 4 forced to 1 and leaves the register's
B (log 23), each flag at its bit (10_state.md R28, log 12); the byte goes to 0x0100 + S, then S is decremented modulo 256; no flag changes and every other byte of RAM reads
as before. -/
def Obligations.PushResults : Prop :=
  (encode .pha = some [0x48] ∧ encode .php = some [0x08]) ∧
  ∀ (s : State) (i : Instr) (v : Byte), s.mem.wf = true →
    (i, v) ∈ [(Instr.pha, s.a), (Instr.php, statusByte { s.p with b := true })] →
    ∃ t, exec i s = .next t ∧ t.sp.toNat = (s.sp.toNat + 255) % 256 ∧
      t = { accounted s t with sp := t.sp, mem := t.mem, pc := s.pc + 1 } ∧
      ramHolds s t (BitVec.ofNat 16 (0x100 + s.sp.toNat)) v ∧ ramSameOutside s t [BitVec.ofNat 16 (0x100 + s.sp.toNat)]

/-- 46_stack_ops.md R126, R128, 20_memory.md R61: S is incremented modulo 256, then the byte at 0x0100 + S is popped; PLA puts
it in A and sets Z and N; PLP takes every flag from its bit of it (10_state.md R28, log 12), with U forced to 1 and B to 0.
Nothing else but PC changes. And the
source's property: after PHP then PLP every flag is back but B, which is clear, and U, which is set; there the stack page is
plain RAM. -/
def Obligations.PopResults : Prop :=
  (encode .pla = some [0x68] ∧ encode .plp = some [0x28]) ∧
  (∀ s : State,
    let top := (s.sp.toNat + 1) % 256
    let v := answer s s.bus (BitVec.ofNat 16 (0x100 + top))
    (∃ t, exec .pla s = .next t ∧ t.sp.toNat = top ∧
      t = { accounted s t with a := v, sp := t.sp, p := zn s.p v, pc := s.pc + 1 }) ∧
    (∃ t, exec .plp s = .next t ∧ t.sp.toNat = top ∧
      t = { accounted s t with sp := t.sp, p := { flagsFrom v with u := true, b := false }, pc := s.pc + 1 } ∧
      t.p.toByte = ((v ||| 0x20) &&& ~~~0x10))) ∧
  ∀ s : State, s.mem.wf = true → plainStack s →
    ∃ t u, exec .php s = .next t ∧ exec .plp t = .next u ∧ u.p = { s.p with b := false, u := true } ∧ u.sp = s.sp

/-- 47_compare_logic.md R129 to R131: CMP, CPX and CPY, in every mode: Z, C and N as the register compares with VAL,
unsigned; V and every register are unchanged. -/
def Obligations.CompareResults : Prop :=
  ∀ (m : Operand) (s : State) (i : Instr) (r : Byte), (i, r) ∈ [(Instr.cmp m, s.a), (Instr.cpx m, s.x), (Instr.cpy m, s.y)] →
    ∃ t, exec i s = .next t ∧ t = { accounted s t with p := compared s.p r t.latch.val, pc := past s m.mode }

/-- 47_compare_logic.md R132 to R134: AND, ORA and EOR, in every mode, bit by bit; Z and N of the result; nothing else but PC
changes. -/
def Obligations.LogicResults : Prop :=
  ∀ (m : Operand) (s : State) (i : Instr) (f : Bool → Bool → Bool),
    (i = .and m ∧ f = Bool.and ∨ i = .ora m ∧ f = Bool.or ∨ i = .eor m ∧ f = Bool.xor) →
    ∃ t, exec i s = .next t ∧ (∀ k < 8, t.a.getLsbD k = f (s.a.getLsbD k) (t.latch.val.getLsbD k)) ∧
      t = { accounted s t with a := t.a, p := zn s.p t.a, pc := past s m.mode }

/-- 47_compare_logic.md R135: BIT, in every mode: Z from VAL and A together, V and N from bits 6 and 7 of VAL alone; A and C
are untouched. -/
def Obligations.BitTestResult : Prop :=
  ∀ (m : Operand) (s : State), ∃ t, exec (.bit m) s = .next t ∧
    t = { accounted s t with
      p := { s.p with
        z := decide (t.latch.val &&& s.a = 0)
        v := decide (t.latch.val.toNat / 64 % 2 = 1)
        n := decide (128 ≤ t.latch.val.toNat) }
      pc := past s m.mode }

/-- 48_add_sub.md R136, 40_alu_flag_helpers.md R94: ADC, in every mode, binary whatever D holds: A, C, Z, N, V; nothing else
but PC changes. -/
def Obligations.AddResult : Prop :=
  ∀ (m : Operand) (s : State), ∃ t, exec (.adc m) s = .next t ∧
    t = { accounted s t with
      a := (added s.p s.a t.latch.val).1, p := (added s.p s.a t.latch.val).2, pc := past s m.mode }

/-- 48_add_sub.md R137: SBC, in every mode: A becomes A - VAL - (1 - C) modulo 256; C = 1 exactly when A >= VAL + (1 - C)
unsigned; Z and N of the result; nothing else but V and PC changes. -/
def Obligations.SubtractResult : Prop :=
  ∀ (m : Operand) (s : State), ∃ t, exec (.sbc m) s = .next t ∧
    (t.a.toNat : Int) = ((s.a.toNat : Int) - t.latch.val.toNat - (1 - s.p.c.toNat)) % 256 ∧
    (t.p.c = true ↔ t.latch.val.toNat + (1 - s.p.c.toNat) ≤ s.a.toNat) ∧
    t = { accounted s t with a := t.a, p := zn { s.p with c := t.p.c, v := t.p.v } t.a, pc := past s m.mode }

/-- 40_alu_flag_helpers.md R94: V is signed two's-complement overflow: after ADC, and after SBC, V = 0 exactly when the
signed sum, or difference with borrow, lies in -128..127. -/
def Obligations.OverflowIsSignedOverflow : Prop :=
  ∀ (m : Operand) (s : State),
    (∃ t, exec (.adc m) s = .next t ∧
      (t.p.v = false ↔ -128 ≤ s.a.toInt + t.latch.val.toInt + s.p.c.toNat ∧
        s.a.toInt + t.latch.val.toInt + s.p.c.toNat ≤ 127)) ∧
    (∃ t, exec (.sbc m) s = .next t ∧
      (t.p.v = false ↔ -128 ≤ s.a.toInt - t.latch.val.toInt - (1 - (s.p.c.toNat : Int)) ∧
        s.a.toInt - t.latch.val.toInt - (1 - (s.p.c.toNat : Int)) ≤ 127))

/-- 10_state.md R32: D is read by pushes of P and by nothing else. An instruction that pushes no P ends, from two states
that differ in D alone, in two states that differ at most in D. -/
def Obligations.DecimalFlagHasNoEffect : Prop :=
  ∀ (i : Instr) (s : State) (b : Bool), (i ≠ .php ∧ i ≠ .brk ∧ ∀ target, i ≠ .jmi target) →
    ∃ t u, exec i s = .next t ∧ exec i (withD s b) = .next u ∧ withD u b = withD t b

/-- 10_state.md R31, 60_exceptions.md R159: the core never consults I. A step that pushes no P, whatever the driver's command,
ends, from two states that differ in I alone, in two states that differ at most in I. -/
def Obligations.CoreNeverConsultsInterruptDisable : Prop :=
  ∀ (s : State) (b : Bool), ¬ stepPushesP s →
    ∃ t u, step s = .next t ∧ step (withI s b) = .next u ∧ withI u b = withI t b

/-- 49_control.md R138: JMP sets PC to the resolved address and changes nothing else. -/
def Obligations.JumpResult : Prop :=
  ∀ (m : Operand) (s : State), ∃ t, exec (.jmp m) s = .next t ∧ t = { accounted s t with pc := t.latch.ea }

/-- 49_control.md R139: JSR pushes the high byte, then the low byte of PC0 + 2, and jumps; no register but S and no flag
changes, and every other byte of RAM reads as before. -/
def Obligations.CallResult : Prop :=
  (∀ target : Word, encode (.jsr target) = some [0x20, loByte target, hiByte target]) ∧
  ∀ (target : Word) (s : State), s.mem.wf = true →
    let high := stackAddr s.sp
    let low := stackAddr (s.sp - 1)
    ∃ t, exec (.jsr target) s = .next t ∧
      t = { accounted s t with sp := s.sp - 2, mem := t.mem, pc := target } ∧
      ramHolds s t high (BitVec.ofNat 8 ((s.pc.toNat + 2) % 65536 / 256)) ∧
      ramHolds s t low (BitVec.ofNat 8 (s.pc.toNat + 2)) ∧ ramSameOutside s t [high, low]

/-- 49_control.md R140: RTS pops low, then high, and adds 1; no flag and no byte of memory changes. And the source's property:
for any starting program counter P and any target T, after JSR the program counter is T, and after the RTS that follows it is
P + 3; S is back. There the stack page is plain RAM. -/
def Obligations.ReturnResult : Prop :=
  encode .rts = some [0x60] ∧
  (∀ s : State, ∃ t, exec .rts s = .next t ∧
    let first := stackAddr (s.sp + 1)
    let second := stackAddr (s.sp + 2)
    t = { accounted s t with sp := s.sp + 2, pc := t.pc } ∧
    t.pc.toNat =
      ((answer s (.read first :: s.bus) second).toNat * 256 + (answer s s.bus first).toNat + 1) % 65536) ∧
  ∀ (target : Word) (s : State), s.mem.wf = true → plainStack s →
    ∃ t u, exec (.jsr target) s = .next t ∧ exec .rts t = .next u ∧ t.pc = target ∧ u.pc = s.pc + 3 ∧ u.sp = s.sp

/-- 49_control.md R141, 60_exceptions.md R160: interrupt entry. PC, high byte first, then P as it stands go to the stack; PC
takes the driver's target; JMI_CYCLES are added; no flag changes, I among them; nothing at all happens while FAULT is set
(the spec's decisions 92 D16 and D28: log 17, 18; the layout of P: log 12). -/
def Obligations.InterruptEntryResult : Prop :=
  ∀ (target : Word) (s : State),
    (s.fault ≠ none → exec (.jmi target) s = .next s) ∧
    (s.fault = none → s.mem.wf = true →
      let high := stackAddr s.sp
      let low := stackAddr (s.sp - 1)
      let status := stackAddr (s.sp - 2)
      ∃ t, exec (.jmi target) s = .next t ∧
        t = { s with sp := s.sp - 3, mem := t.mem, bus := t.bus, pc := target, cyc := s.cyc + s.cfg.jmiCycles } ∧
        ramHolds s t high (BitVec.ofNat 8 (s.pc.toNat / 256)) ∧ ramHolds s t low (BitVec.ofNat 8 s.pc.toNat) ∧
        ramHolds s t status (statusByte s.p) ∧ ramSameOutside s t [high, low, status])

/-- 49_control.md R142, 60_exceptions.md R161: RTI pops P, each flag from its bit (10_state.md R28, log 12), with U forced to 1
and B as popped (log 23), then PC, low byte first, with no offset; no other register and no byte of memory changes. And the source's property: after JMI the program counter is
the target, and after the RTI that follows it is exactly P; S and every flag but U are back, U reads 1. There the stack page
is plain RAM. -/
def Obligations.InterruptReturnResult : Prop :=
  encode .rti = some [0x40] ∧
  (∀ s : State, ∃ t, exec .rti s = .next t ∧
    let first := stackAddr (s.sp + 1)
    let second := stackAddr (s.sp + 2)
    let third := stackAddr (s.sp + 3)
    t = { accounted s t with sp := s.sp + 3, p := { flagsFrom (answer s s.bus first) with u := true }, pc := t.pc } ∧
    t.p.toByte = (answer s s.bus first ||| 0x20) ∧
    t.pc.toNat =
      (answer s (.read second :: .read first :: s.bus) third).toNat * 256 +
        (answer s (.read first :: s.bus) second).toNat) ∧
  ∀ (target : Word) (s : State), s.fault = none → s.mem.wf = true → plainStack s →
    ∃ t u, exec (.jmi target) s = .next t ∧ exec .rti t = .next u ∧ t.pc = target ∧ u.pc = s.pc ∧ u.sp = s.sp ∧
      u.p = { s.p with u := true } ∧ u.a = s.a ∧ u.x = s.x ∧ u.y = s.y

/-- 49_control.md R143 to R151: each branch goes to the resolved address if its flag test is true, else past itself by 2;
nothing else changes (which flag each tests: log 29). -/
def Obligations.BranchResults : Prop :=
  ∀ (ol : Byte) (s : State) (i : Instr) (op : Byte) (cond : Bool),
    (i, op, cond) ∈
      [(Instr.bpl ol, 0x10, !s.p.n), (Instr.bmi ol, 0x30, s.p.n), (Instr.bvc ol, 0x50, !s.p.v), (Instr.bvs ol, 0x70, s.p.v),
       (Instr.bcc ol, 0x90, !s.p.c), (Instr.bcs ol, 0xB0, s.p.c), (Instr.bne ol, 0xD0, !s.p.z), (Instr.beq ol, 0xF0, s.p.z)] →
    encode i = some [op, ol] ∧
    ∃ t, exec i s = .next t ∧ t = { accounted s t with pc := t.pc } ∧
      (t.pc.toNat : Int) = (if cond then s.pc.toNat + ol.toInt + 2 else s.pc.toNat + 2) % 65536

/-- 49_control.md R152, 60_exceptions.md R155: Null raises IllegalOpcode with PC0 and the opcode byte, cause code 1, and
changes nothing else (log 15). -/
def Obligations.NullRaisesIllegalOpcode : Prop :=
  ∀ (op : Byte) (s : State), ∃ t, exec (.null op) s = .next t ∧ t = { s with fault := some ⟨s.pc, op⟩ } ∧ t.faultCode = 1

/-- 49_control.md R153, 60_exceptions.md R164, 20_memory.md R50: BRK pushes PC0 + 2, high byte first, and P with bit 4 forced to
1 (its layout: log 12), sets I, and loads PC from what reads of 0xFFFE and 0xFFFF, low byte first, return after the pushes;
the register's B and every other byte of RAM are unchanged. 0x00 is BRK only under STD_EXTRAS (log 30). -/
def Obligations.BreakResult : Prop :=
  (∀ ol oh, instrOf true 0x00 ol oh = .brk ∧ instrOf false 0x00 ol oh = .null 0x00) ∧
  ∀ s : State, s.mem.wf = true →
    let high := stackAddr s.sp
    let low := stackAddr (s.sp - 1)
    let status := stackAddr (s.sp - 2)
    let pushed := statusByte { s.p with b := true }
    let seen := .write status pushed :: .write low (loByte (s.pc + 2)) :: .write high (hiByte (s.pc + 2)) :: s.bus
    ∃ t, exec .brk s = .next t ∧
      t = { accounted s t with sp := s.sp - 3, mem := t.mem, p := { s.p with i := true }, pc := t.pc } ∧
      ramHolds s t high (BitVec.ofNat 8 ((s.pc.toNat + 2) % 65536 / 256)) ∧
      ramHolds s t low (BitVec.ofNat 8 (s.pc.toNat + 2)) ∧ ramHolds s t status pushed ∧
      ramSameOutside s t [high, low, status] ∧
      t.pc.toNat = (answer s (.read 0xFFFE :: seen) 0xFFFF).toNat * 256 + (answer s seen 0xFFFE).toNat

/-- 49_control.md R154: NOP does nothing; PC advances by 1. 0xEA is NOP only under STD_EXTRAS (log 30). -/
def Obligations.NopResult : Prop :=
  (∀ ol oh, instrOf true 0xEA ol oh = .nop ∧ instrOf false 0xEA ol oh = .null 0xEA) ∧
  ∀ s : State, ∃ t, exec .nop s = .next t ∧ t = { accounted s t with pc := s.pc + 1 }

/-! ## The stack and the whole machine -/

/-- 20_memory.md R63: pushing N bytes and popping N bytes, N at most 256, yields the bytes in reverse order and S as it was,
whatever S is, when the stack page is plain RAM. -/
def Obligations.PushManyPopManyReverses : Prop :=
  ∀ (vs : List Byte) (s : State), s.mem.wf = true → plainStack s → vs.length ≤ 256 →
    (popMany vs.length (vs.foldl State.push s)).1 = vs.reverse ∧
    (popMany vs.length (vs.foldl State.push s)).2.sp = s.sp

/-- 20_memory.md R62: no stack access leaves 0x0100..0x01FF: every access of PHA, PHP, PLA, PLP, JSR, RTS, RTI and JMI after
their fetch, and every write of BRK. -/
def Obligations.StackAccessesStayInPage : Prop :=
  ∀ (i : Instr) (s t : State), writesS i = true → i ≠ .txs → exec i s = .next t →
    ∃ l, t.bus = l ++ s.bus ∧
      (∀ addr v, .write addr v ∈ l → 0x100 ≤ addr.toNat ∧ addr.toNat ≤ 0x1FF) ∧
      (∀ addr, .read addr ∈ l → (0x100 ≤ addr.toNat ∧ addr.toNat ≤ 0x1FF) ∨ i = .brk)

/-- 10_state.md R23: which instructions write A, X and Y; every other instruction leaves them. -/
def Obligations.RegisterWritersAreTheListedOnes : Prop :=
  ∀ (i : Instr) (s t : State), exec i s = .next t →
    (writesA i = false → t.a = s.a) ∧ (writesX i = false → t.x = s.x) ∧ (writesY i = false → t.y = s.y)

/-- 10_state.md R29 to R36: which instructions write each flag; every other instruction leaves it. -/
def Obligations.FlagWritersAreTheListedOnes : Prop :=
  ∀ (i : Instr) (s t : State), exec i s = .next t →
    (writesC i = false → t.p.c = s.p.c) ∧ (writesZN i = false → t.p.z = s.p.z ∧ t.p.n = s.p.n) ∧
    (writesI i = false → t.p.i = s.p.i) ∧ (writesD i = false → t.p.d = s.p.d) ∧
    (writesBU i = false → t.p.b = s.p.b ∧ t.p.u = s.p.u) ∧ (writesV i = false → t.p.v = s.p.v)

/-- 20_memory.md R49, 40_alu_flag_helpers.md's helpers and the rules of 41 to 49: an instruction that is no store,
read-modify-write on memory or push leaves all of RAM. -/
def Obligations.MemoryWritersAreTheListedOnes : Prop :=
  ∀ (i : Instr) (s t : State), exec i s = .next t → writesMemory i = false →
    t.mem = s.mem ∧ ∀ addr v l, t.bus = l ++ s.bus → .write addr v ∉ l

/-! ## Reset and the driver's commands -/

/-- 70_reset_and_hazards.md R172: the `Reset` command, in any state, a faulted one too: two reads of the vector, low byte
first, and the values R172 gives; A, X, Y, C, Z, D, V, N and LATCH are any values; memory, the map and the parameters are
unchanged (the spec's decision 92 D18: log 4, 11, 31). -/
def Obligations.ResetCommandResult : Prop :=
  ∀ (s : State) (cs : List Command), s.commands = .reset :: cs →
    ∃ t, step s = .next t ∧
      t = { s with
        commands := cs, bus := .read 0xFFFD :: .read 0xFFFC :: s.bus, draws := s.draws + 1
        a := t.a, x := t.x, y := t.y, latch := t.latch, p := t.p, pc := t.pc
        sp := 0xFD, cyc := 0, fault := none } ∧
      t.p.i = true ∧ t.p.b = false ∧ t.p.u = true ∧
      t.pc.toNat = (answer s (.read 0xFFFC :: s.bus) 0xFFFD).toNat * 256 + (answer s s.bus 0xFFFC).toNat

/-- 70_reset_and_hazards.md R172: what `State.reset` has of the spec's values: S, I, B, U, CYC, FAULT, PC the word at the
vector of its memory, and the vector's two reads (log 7, 9, 10, 11, 20). (Its A, X, Y, C, Z, D, V, N and LATCH are the model's: log 1, 2, 3.) -/
def Obligations.ResetStateHasTheSpecsValues : Prop :=
  State.reset.sp = 0xFD ∧ State.reset.p.i = true ∧ State.reset.p.b = false ∧ State.reset.p.u = true ∧
  State.reset.cyc = 0 ∧ State.reset.fault = none ∧
  State.reset.pc.toNat = (State.reset.mem.read 0xFFFD).toNat * 256 + (State.reset.mem.read 0xFFFC).toNat ∧
  State.reset.bus = [.read 0xFFFD, .read 0xFFFC] ∧ State.reset.cfg.pageCrossPenalty = 3 ∧
  State.reset.cfg.stdExtras = false ∧ State.reset.cfg.zpPointerWrap = false

/-- 00_scope.md R6, 60_exceptions.md R160: the driver's `Interrupt(target)` is the interrupt entry, between two steps: PC
saved is the address of the next instruction, and no instruction byte is read. -/
def Obligations.InterruptCommandIsInterruptEntry : Prop :=
  ∀ (s : State) (target : Word) (cs : List Command), s.commands = .interrupt target :: cs → s.fault = none →
    step s = exec (.jmi target) { s with commands := cs } ∧
    ∃ t, step s = .next t ∧ t.pc = target ∧ t.p = s.p ∧ t.sp = s.sp - 3 ∧ t.commands = cs ∧
      ∀ addr l, t.bus = l ++ s.bus → .read addr ∉ l
end

