-- ==== Sys2Proof/Laws/Decode.lean ====
section
/-! SUPPORT. What the decoder answers, for every opcode byte and every operand byte. -/

namespace Sys2Proof

/-- A property of every byte, from the 256 numbers. -/
theorem forall_byte {P : Byte → Prop} (h : ∀ n < 256, P (BitVec.ofNat 8 n)) (b : Byte) : P b := by
  have := h b.toNat b.isLt
  rwa [BitVec.ofNat_toNat, BitVec.setWidth_eq] at this

/-- What a byte decodes to has the length the byte's mode gives, is well formed, and has that byte as its opcode. -/
theorem instrOf_facts (x : Bool) (op ol oh : Byte) :
    (instrOf x op ol oh).length = lengthOf x op ∧ (instrOf x op ol oh).wellFormed x = true ∧
    opcodeOf (instrOf x op ol oh) = some op := by
  refine forall_byte (P := fun b => (instrOf x b ol oh).length = lengthOf x b ∧ (instrOf x b ol oh).wellFormed x = true ∧
    opcodeOf (instrOf x b ol oh) = some b) (fun n hn => ?_) op
  interval_cases n
  all_goals first
    | exact ⟨rfl, rfl, rfl⟩
    | (cases x <;> exact ⟨rfl, rfl, rfl⟩)

theorem instrOf_length (x : Bool) (op ol oh : Byte) : (instrOf x op ol oh).length = lengthOf x op :=
  (instrOf_facts x op ol oh).1

theorem instrOf_wellFormed (x : Bool) (op ol oh : Byte) : (instrOf x op ol oh).wellFormed x = true :=
  (instrOf_facts x op ol oh).2.1

theorem opcodeOf_instrOf (x : Bool) (op ol oh : Byte) : opcodeOf (instrOf x op ol oh) = some op :=
  (instrOf_facts x op ol oh).2.2

/-- The three lengths (30_encoding.md R65). -/
theorem lengthOf_cases (x : Bool) (op : Byte) : lengthOf x op = 1 ∨ lengthOf x op = 2 ∨ lengthOf x op = 3 := by
  unfold lengthOf
  cases modeOf x op <;> simp [Mode.length]

/-- The decoder's grid is Null exactly at the bytes of the list (30_encoding.md R67, R68). -/
theorem pairingOf_isNone : ∀ (x : Bool) (op : Byte), (pairingOf x op).isNone = isNullByte x op := by
  decide +kernel

theorem toNat_joinBytes (hi lo : Byte) : (joinBytes hi lo).toNat = hi.toNat * 256 + lo.toNat := by
  show (hi ++ lo).toNat = _
  have hlo : lo.toNat < 2 ^ 8 := lo.isLt
  rw [BitVec.toNat_append, ← Nat.shiftLeft_add_eq_or_of_lt hlo, Nat.shiftLeft_eq]

theorem toNat_loByte (w : Word) : (loByte w).toNat = w.toNat % 256 := by
  simp [loByte, BitVec.extractLsb'_toNat]

theorem toNat_hiByte (w : Word) : (hiByte w).toNat = w.toNat / 256 := by
  have := w.isLt
  simp [hiByte, BitVec.extractLsb'_toNat, Nat.shiftRight_eq_div_pow]
  omega

@[simp] theorem loByte_joinBytes (hi lo : Byte) : loByte (joinBytes hi lo) = lo := by
  apply BitVec.eq_of_toNat_eq
  rw [toNat_loByte, toNat_joinBytes]
  have := lo.isLt
  omega

@[simp] theorem hiByte_joinBytes (hi lo : Byte) : hiByte (joinBytes hi lo) = hi := by
  apply BitVec.eq_of_toNat_eq
  rw [toNat_hiByte, toNat_joinBytes]
  have := lo.isLt
  omega

@[simp] theorem joinBytes_hiByte_loByte (w : Word) : joinBytes (hiByte w) (loByte w) = w := by
  apply BitVec.eq_of_toNat_eq
  rw [toNat_joinBytes, toNat_hiByte, toNat_loByte]
  omega

end Sys2Proof
end

