-- ==== Sys2Proof/Laws/Memory.lean ====
section
/-! SUPPORT. The laws of plain RAM: read after write, the canonical form is kept, and canonical memories that read alike are
equal data. -/

namespace Sys2Proof.Machine.Memory

@[simp] theorem read_nil (a : Nat) : read [] a = unwrittenByte := rfl

/-- Below the lowest address it may list, a canonical memory reads as unwritten. -/
theorem read_below {lo : Nat} {m : Memory} (h : wfFrom lo m = true) {a : Nat} (ha : a < lo) :
    read m a = unwrittenByte := by
  induction m generalizing lo with
  | nil => rfl
  | cons e rest ih =>
    obtain ⟨k, w⟩ := e
    simp only [wfFrom, Bool.and_eq_true, decide_eq_true_eq] at h
    obtain ⟨⟨⟨hlo, -⟩, -⟩, hrest⟩ := h
    rw [read, if_neg (by omega)]
    exact ih hrest (by omega)

theorem wfFrom_weaken {lo lo' : Nat} {m : Memory} (h : wfFrom lo m = true) (hl : lo' ≤ lo) : wfFrom lo' m = true := by
  cases m with
  | nil => rfl
  | cons e rest =>
    obtain ⟨k, w⟩ := e
    simp only [wfFrom, Bool.and_eq_true, decide_eq_true_eq] at h ⊢
    exact ⟨⟨⟨by omega, h.1.1.2⟩, h.1.2⟩, h.2⟩

/-- What a write leaves at every address, of a canonical memory. -/
theorem read_write_from {lo : Nat} {m : Memory} (h : wfFrom lo m = true) (a : Nat) (v : Byte) (b : Nat) :
    read (write m a v) b = if b = a then v else read m b := by
  induction m generalizing lo with
  | nil =>
    by_cases hv : v = unwrittenByte
    · simp [write, hv]
    · by_cases hb : b = a
      · simp [write, hv, read, hb]
      · simp [write, hv, read, hb, Ne.symm hb]
  | cons e rest ih =>
    obtain ⟨k, w⟩ := e
    have h' := h
    simp only [wfFrom, Bool.and_eq_true, decide_eq_true_eq] at h
    obtain ⟨-, hrest⟩ := h
    have below : ∀ x, x ≤ k → read rest x = unwrittenByte := fun x hx => read_below hrest (by omega)
    by_cases hka : k < a
    · rw [write, if_pos hka, read, read, ih hrest]
      by_cases hkb : k = b
      · rw [if_pos hkb, if_pos hkb, if_neg (by omega)]
      · rw [if_neg hkb, if_neg hkb]
    · rw [write, if_neg hka]
      by_cases hk : k = a
      · subst hk
        by_cases hv : v = unwrittenByte
        · by_cases hb : b = k
          · simp [hv, hb, below k le_rfl]
          · simp [hv, hb, read, Ne.symm hb]
        · by_cases hb : b = k
          · simp [hv, hb, read]
          · simp [hv, hb, read, Ne.symm hb]
      · by_cases hv : v = unwrittenByte
        · by_cases hb : b = a
          · subst hb
            simp [hv, hk, read, below b (by omega)]
          · simp [hv, hk, hb]
        · by_cases hb : b = a
          · simp [hv, hk, hb, read]
          · simp only [hk, hv, if_false, if_neg hb]
            rw [read, if_neg (Ne.symm hb)]

/-- Read after write, of a canonical memory. -/
theorem read_write {m : Memory} (h : wf m = true) (a : Nat) (v : Byte) (b : Nat) :
    read (write m a v) b = if b = a then v else read m b := read_write_from h a v b

theorem wfFrom_write {lo : Nat} {m : Memory} (h : wfFrom lo m = true) {a : Nat} (ha : a < addressSpace) (hlo : lo ≤ a)
    (v : Byte) : wfFrom lo (write m a v) = true := by
  induction m generalizing lo with
  | nil =>
    by_cases hv : v = unwrittenByte
    · simp [write, hv, wfFrom]
    · simp [write, hv, wfFrom, hlo, ha]
  | cons e rest ih =>
    obtain ⟨k, w⟩ := e
    have h0 := h
    simp only [wfFrom, Bool.and_eq_true, decide_eq_true_eq] at h
    obtain ⟨⟨⟨hk, hks⟩, hw⟩, hrest⟩ := h
    by_cases hka : k < a
    · simp [write, hka, wfFrom, hk, hks, hw, ih hrest (by omega)]
    · by_cases hke : k = a
      · subst hke
        by_cases hv : v = unwrittenByte
        · simpa [write, hv] using wfFrom_weaken hrest (by omega)
        · simp [write, hv, wfFrom, hk, hks, hrest]
      · have htail : wfFrom (a + 1) ((k, w) :: rest) = true := by
          simp only [wfFrom, Bool.and_eq_true, decide_eq_true_eq]
          exact ⟨⟨⟨by omega, hks⟩, hw⟩, hrest⟩
        by_cases hv : v = unwrittenByte
        · simpa [write, hka, hke, hv] using h0
        · simp [write, hka, hke, hv, wfFrom, hlo, ha] 
          simpa [wfFrom] using htail

/-- A write within the address space keeps the canonical form. -/
theorem wf_write {m : Memory} (h : wf m = true) {a : Nat} (ha : a < addressSpace) (v : Byte) : wf (write m a v) = true :=
  wfFrom_write h ha (Nat.zero_le _) v

/-- Canonical memories that read alike at every address are equal data. -/
theorem ext_of_wfFrom {lo : Nat} {m m' : Memory} (h : wfFrom lo m = true) (h' : wfFrom lo m' = true)
    (hread : ∀ a, read m a = read m' a) : m = m' := by
  induction m generalizing lo m' with
  | nil =>
    cases m' with
    | nil => rfl
    | cons e rest =>
      obtain ⟨k, w⟩ := e
      simp only [wfFrom, Bool.and_eq_true, decide_eq_true_eq] at h'
      exact absurd (by simpa [read] using (hread k).symm) h'.1.2
  | cons e rest ih =>
    obtain ⟨k, w⟩ := e
    have h0 := h
    simp only [wfFrom, Bool.and_eq_true, decide_eq_true_eq] at h
    cases m' with
    | nil => exact absurd (by simpa [read] using hread k) h.1.2
    | cons e' rest' =>
      obtain ⟨k', w'⟩ := e'
      have h0' := h'
      simp only [wfFrom, Bool.and_eq_true, decide_eq_true_eq] at h'
      have hk : k = k' := by
        rcases Nat.lt_trichotomy k k' with hlt | heq | hgt
        · refine absurd ?_ h.1.2
          have := hread k
          rw [read, if_pos rfl, read, if_neg (by omega), read_below h'.2 (by omega)] at this
          exact this
        · exact heq
        · refine absurd ?_ h'.1.2
          have := hread k'
          rw [read, if_neg (by omega), read_below h.2 (by omega), read, if_pos rfl] at this
          exact this.symm
      subst hk
      have hw : w = w' := by simpa [read] using hread k
      subst hw
      congr 1
      refine ih h.2 h'.2 fun a => ?_
      by_cases ha : a ≤ k
      · rw [read_below h.2 (by omega), read_below h'.2 (by omega)]
      · have := hread a
        rwa [read, if_neg (by omega), read, if_neg (by omega)] at this

theorem ext_of_wf {m m' : Memory} (h : wf m = true) (h' : wf m' = true) (hread : ∀ a, read m a = read m' a) : m = m' :=
  ext_of_wfFrom h h' hread

end Sys2Proof.Machine.Memory
end

