-- ==== Sys2Proof/Laws/State.lean ====
section
/-! SUPPORT. One lemma per field for each update of the state, each true by rfl. -/

namespace Sys2Proof.Machine.State

@[simp] theorem note_a (s : State) (q : Access) : (s.note q).a = s.a := rfl
@[simp] theorem note_x (s : State) (q : Access) : (s.note q).x = s.x := rfl
@[simp] theorem note_y (s : State) (q : Access) : (s.note q).y = s.y := rfl
@[simp] theorem note_sp (s : State) (q : Access) : (s.note q).sp = s.sp := rfl
@[simp] theorem note_p (s : State) (q : Access) : (s.note q).p = s.p := rfl
@[simp] theorem note_pc (s : State) (q : Access) : (s.note q).pc = s.pc := rfl
@[simp] theorem note_cyc (s : State) (q : Access) : (s.note q).cyc = s.cyc := rfl
@[simp] theorem note_latch (s : State) (q : Access) : (s.note q).latch = s.latch := rfl
@[simp] theorem note_fault (s : State) (q : Access) : (s.note q).fault = s.fault := rfl
@[simp] theorem note_mem (s : State) (q : Access) : (s.note q).mem = s.mem := rfl
@[simp] theorem note_opaqueRegions (s : State) (q : Access) : (s.note q).opaqueRegions = s.opaqueRegions := rfl
@[simp] theorem note_bus (s : State) (q : Access) : (s.note q).bus = q :: s.bus := rfl
@[simp] theorem note_commands (s : State) (q : Access) : (s.note q).commands = s.commands := rfl
@[simp] theorem note_cfg (s : State) (q : Access) : (s.note q).cfg = s.cfg := rfl
@[simp] theorem note_draws (s : State) (q : Access) : (s.note q).draws = s.draws := rfl

@[simp] theorem addCycles_a (s : State) (q : Nat) : (s.addCycles q).a = s.a := rfl
@[simp] theorem addCycles_x (s : State) (q : Nat) : (s.addCycles q).x = s.x := rfl
@[simp] theorem addCycles_y (s : State) (q : Nat) : (s.addCycles q).y = s.y := rfl
@[simp] theorem addCycles_sp (s : State) (q : Nat) : (s.addCycles q).sp = s.sp := rfl
@[simp] theorem addCycles_p (s : State) (q : Nat) : (s.addCycles q).p = s.p := rfl
@[simp] theorem addCycles_pc (s : State) (q : Nat) : (s.addCycles q).pc = s.pc := rfl
@[simp] theorem addCycles_cyc (s : State) (q : Nat) : (s.addCycles q).cyc = s.cyc + q := rfl
@[simp] theorem addCycles_latch (s : State) (q : Nat) : (s.addCycles q).latch = s.latch := rfl
@[simp] theorem addCycles_fault (s : State) (q : Nat) : (s.addCycles q).fault = s.fault := rfl
@[simp] theorem addCycles_mem (s : State) (q : Nat) : (s.addCycles q).mem = s.mem := rfl
@[simp] theorem addCycles_opaqueRegions (s : State) (q : Nat) : (s.addCycles q).opaqueRegions = s.opaqueRegions := rfl
@[simp] theorem addCycles_bus (s : State) (q : Nat) : (s.addCycles q).bus = s.bus := rfl
@[simp] theorem addCycles_commands (s : State) (q : Nat) : (s.addCycles q).commands = s.commands := rfl
@[simp] theorem addCycles_cfg (s : State) (q : Nat) : (s.addCycles q).cfg = s.cfg := rfl
@[simp] theorem addCycles_draws (s : State) (q : Nat) : (s.addCycles q).draws = s.draws := rfl

@[simp] theorem raiseIllegalOpcode_a (s : State) (q : Byte) : (s.raiseIllegalOpcode q).a = s.a := rfl
@[simp] theorem raiseIllegalOpcode_x (s : State) (q : Byte) : (s.raiseIllegalOpcode q).x = s.x := rfl
@[simp] theorem raiseIllegalOpcode_y (s : State) (q : Byte) : (s.raiseIllegalOpcode q).y = s.y := rfl
@[simp] theorem raiseIllegalOpcode_sp (s : State) (q : Byte) : (s.raiseIllegalOpcode q).sp = s.sp := rfl
@[simp] theorem raiseIllegalOpcode_p (s : State) (q : Byte) : (s.raiseIllegalOpcode q).p = s.p := rfl
@[simp] theorem raiseIllegalOpcode_pc (s : State) (q : Byte) : (s.raiseIllegalOpcode q).pc = s.pc := rfl
@[simp] theorem raiseIllegalOpcode_cyc (s : State) (q : Byte) : (s.raiseIllegalOpcode q).cyc = s.cyc := rfl
@[simp] theorem raiseIllegalOpcode_latch (s : State) (q : Byte) : (s.raiseIllegalOpcode q).latch = s.latch := rfl
@[simp] theorem raiseIllegalOpcode_fault (s : State) (q : Byte) : (s.raiseIllegalOpcode q).fault = some ⟨s.pc, q⟩ := rfl
@[simp] theorem raiseIllegalOpcode_mem (s : State) (q : Byte) : (s.raiseIllegalOpcode q).mem = s.mem := rfl
@[simp] theorem raiseIllegalOpcode_opaqueRegions (s : State) (q : Byte) : (s.raiseIllegalOpcode q).opaqueRegions = s.opaqueRegions := rfl
@[simp] theorem raiseIllegalOpcode_bus (s : State) (q : Byte) : (s.raiseIllegalOpcode q).bus = s.bus := rfl
@[simp] theorem raiseIllegalOpcode_commands (s : State) (q : Byte) : (s.raiseIllegalOpcode q).commands = s.commands := rfl
@[simp] theorem raiseIllegalOpcode_cfg (s : State) (q : Byte) : (s.raiseIllegalOpcode q).cfg = s.cfg := rfl
@[simp] theorem raiseIllegalOpcode_draws (s : State) (q : Byte) : (s.raiseIllegalOpcode q).draws = s.draws := rfl

@[simp] theorem setRegisterA_a (s : State) (q : Byte) : (s.setRegisterA q).a = q := rfl
@[simp] theorem setRegisterA_x (s : State) (q : Byte) : (s.setRegisterA q).x = s.x := rfl
@[simp] theorem setRegisterA_y (s : State) (q : Byte) : (s.setRegisterA q).y = s.y := rfl
@[simp] theorem setRegisterA_sp (s : State) (q : Byte) : (s.setRegisterA q).sp = s.sp := rfl
@[simp] theorem setRegisterA_p (s : State) (q : Byte) : (s.setRegisterA q).p = s.p.setZN q := rfl
@[simp] theorem setRegisterA_pc (s : State) (q : Byte) : (s.setRegisterA q).pc = s.pc := rfl
@[simp] theorem setRegisterA_cyc (s : State) (q : Byte) : (s.setRegisterA q).cyc = s.cyc := rfl
@[simp] theorem setRegisterA_latch (s : State) (q : Byte) : (s.setRegisterA q).latch = s.latch := rfl
@[simp] theorem setRegisterA_fault (s : State) (q : Byte) : (s.setRegisterA q).fault = s.fault := rfl
@[simp] theorem setRegisterA_mem (s : State) (q : Byte) : (s.setRegisterA q).mem = s.mem := rfl
@[simp] theorem setRegisterA_opaqueRegions (s : State) (q : Byte) : (s.setRegisterA q).opaqueRegions = s.opaqueRegions := rfl
@[simp] theorem setRegisterA_bus (s : State) (q : Byte) : (s.setRegisterA q).bus = s.bus := rfl
@[simp] theorem setRegisterA_commands (s : State) (q : Byte) : (s.setRegisterA q).commands = s.commands := rfl
@[simp] theorem setRegisterA_cfg (s : State) (q : Byte) : (s.setRegisterA q).cfg = s.cfg := rfl
@[simp] theorem setRegisterA_draws (s : State) (q : Byte) : (s.setRegisterA q).draws = s.draws := rfl

@[simp] theorem setRegisterX_a (s : State) (q : Byte) : (s.setRegisterX q).a = s.a := rfl
@[simp] theorem setRegisterX_x (s : State) (q : Byte) : (s.setRegisterX q).x = q := rfl
@[simp] theorem setRegisterX_y (s : State) (q : Byte) : (s.setRegisterX q).y = s.y := rfl
@[simp] theorem setRegisterX_sp (s : State) (q : Byte) : (s.setRegisterX q).sp = s.sp := rfl
@[simp] theorem setRegisterX_p (s : State) (q : Byte) : (s.setRegisterX q).p = s.p.setZN q := rfl
@[simp] theorem setRegisterX_pc (s : State) (q : Byte) : (s.setRegisterX q).pc = s.pc := rfl
@[simp] theorem setRegisterX_cyc (s : State) (q : Byte) : (s.setRegisterX q).cyc = s.cyc := rfl
@[simp] theorem setRegisterX_latch (s : State) (q : Byte) : (s.setRegisterX q).latch = s.latch := rfl
@[simp] theorem setRegisterX_fault (s : State) (q : Byte) : (s.setRegisterX q).fault = s.fault := rfl
@[simp] theorem setRegisterX_mem (s : State) (q : Byte) : (s.setRegisterX q).mem = s.mem := rfl
@[simp] theorem setRegisterX_opaqueRegions (s : State) (q : Byte) : (s.setRegisterX q).opaqueRegions = s.opaqueRegions := rfl
@[simp] theorem setRegisterX_bus (s : State) (q : Byte) : (s.setRegisterX q).bus = s.bus := rfl
@[simp] theorem setRegisterX_commands (s : State) (q : Byte) : (s.setRegisterX q).commands = s.commands := rfl
@[simp] theorem setRegisterX_cfg (s : State) (q : Byte) : (s.setRegisterX q).cfg = s.cfg := rfl
@[simp] theorem setRegisterX_draws (s : State) (q : Byte) : (s.setRegisterX q).draws = s.draws := rfl

@[simp] theorem setRegisterY_a (s : State) (q : Byte) : (s.setRegisterY q).a = s.a := rfl
@[simp] theorem setRegisterY_x (s : State) (q : Byte) : (s.setRegisterY q).x = s.x := rfl
@[simp] theorem setRegisterY_y (s : State) (q : Byte) : (s.setRegisterY q).y = q := rfl
@[simp] theorem setRegisterY_sp (s : State) (q : Byte) : (s.setRegisterY q).sp = s.sp := rfl
@[simp] theorem setRegisterY_p (s : State) (q : Byte) : (s.setRegisterY q).p = s.p.setZN q := rfl
@[simp] theorem setRegisterY_pc (s : State) (q : Byte) : (s.setRegisterY q).pc = s.pc := rfl
@[simp] theorem setRegisterY_cyc (s : State) (q : Byte) : (s.setRegisterY q).cyc = s.cyc := rfl
@[simp] theorem setRegisterY_latch (s : State) (q : Byte) : (s.setRegisterY q).latch = s.latch := rfl
@[simp] theorem setRegisterY_fault (s : State) (q : Byte) : (s.setRegisterY q).fault = s.fault := rfl
@[simp] theorem setRegisterY_mem (s : State) (q : Byte) : (s.setRegisterY q).mem = s.mem := rfl
@[simp] theorem setRegisterY_opaqueRegions (s : State) (q : Byte) : (s.setRegisterY q).opaqueRegions = s.opaqueRegions := rfl
@[simp] theorem setRegisterY_bus (s : State) (q : Byte) : (s.setRegisterY q).bus = s.bus := rfl
@[simp] theorem setRegisterY_commands (s : State) (q : Byte) : (s.setRegisterY q).commands = s.commands := rfl
@[simp] theorem setRegisterY_cfg (s : State) (q : Byte) : (s.setRegisterY q).cfg = s.cfg := rfl
@[simp] theorem setRegisterY_draws (s : State) (q : Byte) : (s.setRegisterY q).draws = s.draws := rfl

@[simp] theorem addToA_a (s : State) (q : Byte) : (s.addToA q).a = (addWithCarry s.p s.a q).1 := rfl
@[simp] theorem addToA_x (s : State) (q : Byte) : (s.addToA q).x = s.x := rfl
@[simp] theorem addToA_y (s : State) (q : Byte) : (s.addToA q).y = s.y := rfl
@[simp] theorem addToA_sp (s : State) (q : Byte) : (s.addToA q).sp = s.sp := rfl
@[simp] theorem addToA_p (s : State) (q : Byte) : (s.addToA q).p = (addWithCarry s.p s.a q).2 := rfl
@[simp] theorem addToA_pc (s : State) (q : Byte) : (s.addToA q).pc = s.pc := rfl
@[simp] theorem addToA_cyc (s : State) (q : Byte) : (s.addToA q).cyc = s.cyc := rfl
@[simp] theorem addToA_latch (s : State) (q : Byte) : (s.addToA q).latch = s.latch := rfl
@[simp] theorem addToA_fault (s : State) (q : Byte) : (s.addToA q).fault = s.fault := rfl
@[simp] theorem addToA_mem (s : State) (q : Byte) : (s.addToA q).mem = s.mem := rfl
@[simp] theorem addToA_opaqueRegions (s : State) (q : Byte) : (s.addToA q).opaqueRegions = s.opaqueRegions := rfl
@[simp] theorem addToA_bus (s : State) (q : Byte) : (s.addToA q).bus = s.bus := rfl
@[simp] theorem addToA_commands (s : State) (q : Byte) : (s.addToA q).commands = s.commands := rfl
@[simp] theorem addToA_cfg (s : State) (q : Byte) : (s.addToA q).cfg = s.cfg := rfl
@[simp] theorem addToA_draws (s : State) (q : Byte) : (s.addToA q).draws = s.draws := rfl

@[simp] theorem branch_a (s : State) (q : Bool) (ea : Word) : (s.branch q ea).a = s.a := rfl
@[simp] theorem branch_x (s : State) (q : Bool) (ea : Word) : (s.branch q ea).x = s.x := rfl
@[simp] theorem branch_y (s : State) (q : Bool) (ea : Word) : (s.branch q ea).y = s.y := rfl
@[simp] theorem branch_sp (s : State) (q : Bool) (ea : Word) : (s.branch q ea).sp = s.sp := rfl
@[simp] theorem branch_p (s : State) (q : Bool) (ea : Word) : (s.branch q ea).p = s.p := rfl
@[simp] theorem branch_pc (s : State) (q : Bool) (ea : Word) : (s.branch q ea).pc = if q then ea else s.pc + 2 := rfl
@[simp] theorem branch_cyc (s : State) (q : Bool) (ea : Word) : (s.branch q ea).cyc = s.cyc := rfl
@[simp] theorem branch_latch (s : State) (q : Bool) (ea : Word) : (s.branch q ea).latch = s.latch := rfl
@[simp] theorem branch_fault (s : State) (q : Bool) (ea : Word) : (s.branch q ea).fault = s.fault := rfl
@[simp] theorem branch_mem (s : State) (q : Bool) (ea : Word) : (s.branch q ea).mem = s.mem := rfl
@[simp] theorem branch_opaqueRegions (s : State) (q : Bool) (ea : Word) : (s.branch q ea).opaqueRegions = s.opaqueRegions := rfl
@[simp] theorem branch_bus (s : State) (q : Bool) (ea : Word) : (s.branch q ea).bus = s.bus := rfl
@[simp] theorem branch_commands (s : State) (q : Bool) (ea : Word) : (s.branch q ea).commands = s.commands := rfl
@[simp] theorem branch_cfg (s : State) (q : Bool) (ea : Word) : (s.branch q ea).cfg = s.cfg := rfl
@[simp] theorem branch_draws (s : State) (q : Bool) (ea : Word) : (s.branch q ea).draws = s.draws := rfl

end Sys2Proof.Machine.State
end

