-- ==== Sys2Proof/Laws/Ops.lean ====
section
/-! SUPPORT. One equation per shared operation, which says everything it does; the provers cite it and do not unfold the
operation. -/

namespace Sys2Proof.Machine

namespace State

/-! ## The memory port -/

theorem word_lt (w : Word) : w.toNat < addressSpace := w.isLt

/-- What the RAM holds after a write at the port. -/
def ramAfter (s : State) (addr : Word) (v : Byte) : Memory :=
  if s.isOpaque addr then s.mem else s.mem.write addr.toNat v

theorem memRead_eq (s : State) (addr : Word) :
    s.memRead addr = (s.peek addr, { s with bus := .read addr :: s.bus }) := rfl

theorem memWrite_eq (s : State) (addr : Word) (v : Byte) :
    s.memWrite addr v = { s with mem := s.ramAfter addr v, bus := .write addr v :: s.bus } := by
  unfold memWrite ramAfter
  split <;> rfl

/-- Whether an address is the map's own depends on the regions alone. -/
theorem isOpaque_congr {s t : State} (h : s.opaqueRegions = t.opaqueRegions) (addr : Word) :
    s.isOpaque addr = t.isOpaque addr := by
  unfold isOpaque
  rw [h]

/-- In plain RAM, a read gives the RAM's byte. -/
theorem peek_plain {s : State} {addr : Word} (h : s.isOpaque addr = false) : s.peek addr = s.mem.read addr.toNat := by
  simp [peek, h]

/-- Where the map answers for itself, a read gives the free value of the history. -/
theorem peek_opaque {s : State} {addr : Word} (h : s.isOpaque addr = true) : s.peek addr = Config.mapByte s.bus addr := by
  simp [peek, h]

theorem readPair_eq (s : State) (lo hi : Word) :
    s.readPair lo hi =
      (joinBytes (State.peek { s with bus := .read lo :: s.bus } hi) (s.peek lo),
       { s with bus := .read hi :: .read lo :: s.bus }) := rfl

theorem read16_eq (s : State) (a : Word) : s.read16 a = s.readPair a (a + 1) := rfl

theorem readZP16_eq (s : State) (z : Byte) :
    s.readZP16 z = s.readPair (zext16 z) (if s.cfg.zpPointerWrap then zext16 (z + 1) else zext16 z + 1) := by
  unfold readZP16 read16
  split <;> rfl

/-! ## The stack -/

theorem push_eq (s : State) (v : Byte) :
    s.push v =
      { s with
        sp := s.sp - 1
        mem := s.ramAfter (stackAddr s.sp) v
        bus := .write (stackAddr s.sp) v :: s.bus } := by
  simp [push, memWrite_eq]

theorem pop_eq (s : State) :
    s.pop =
      (State.peek { s with sp := s.sp + 1 } (stackAddr (s.sp + 1)),
       { s with sp := s.sp + 1, bus := .read (stackAddr (s.sp + 1)) :: s.bus }) := rfl

/-- The stack pointer is no part of what a read returns. -/
@[simp] theorem peek_with_sp (s : State) (q : Byte) (addr : Word) : State.peek { s with sp := q } addr = s.peek addr := rfl

/-- The status is no part of what a read returns. -/
@[simp] theorem peek_with_p (s : State) (q : Flags) (addr : Word) : State.peek { s with p := q } addr = s.peek addr := rfl

/-- CYC is no part of what a read returns. -/
@[simp] theorem peek_addCycles (s : State) (n : Nat) (addr : Word) : (s.addCycles n).peek addr = s.peek addr := rfl

/-- Every stack access is within 0x0100 to 0x01FF. -/
theorem stackAddr_toNat (sp : Byte) : (stackAddr sp).toNat = 0x100 + sp.toNat := by
  have : sp.toNat < 256 := sp.isLt
  simp only [stackAddr, stackBase, zext16, BitVec.toNat_add, BitVec.zeroExtend, BitVec.toNat_setWidth]
  simp
  omega

/-! ## RAM stays canonical -/

theorem wf_ramAfter {s : State} (h : s.mem.wf = true) (addr : Word) (v : Byte) : (s.ramAfter addr v).wf = true := by
  unfold ramAfter
  split
  · exact h
  · exact Memory.wf_write h (word_lt addr) v

/-- The RAM after a write at the port reads as before but at the address written, and there too where the map answers for
itself. -/
theorem read_ramAfter {s : State} (h : s.mem.wf = true) (addr : Word) (v : Byte) (b : Nat) :
    (s.ramAfter addr v).read b = if s.isOpaque addr = false ∧ b = addr.toNat then v else s.mem.read b := by
  unfold ramAfter
  by_cases ho : s.isOpaque addr = true
  · simp [ho]
  · simp [ho, Memory.read_write h]

/-! ## Resolution, preparation and fetch -/

theorem readAt_eq (s : State) (ea : Word) :
    s.readAt ea = (⟨ea, s.peek ea⟩, { s with bus := .read ea :: s.bus }) := rfl

/-- The cycles a page crossing adds. -/
def crossingCycles (s : State) (sensitive : Bool) (base : Word) (idx : Byte) : Nat :=
  if sensitive && crossesPage base idx then s.cfg.pageCrossPenalty else 0

theorem chargeCrossing_eq (s : State) (sensitive : Bool) (base : Word) (idx : Byte) :
    s.chargeCrossing sensitive base idx = s.addCycles (s.crossingCycles sensitive base idx) := by
  unfold chargeCrossing crossingCycles
  split <;> rfl

theorem readIndexed_eq (s : State) (sensitive : Bool) (base : Word) (idx : Byte) :
    s.readIndexed sensitive base idx =
      (⟨base + zext16 idx, s.peek (base + zext16 idx)⟩,
       { s with cyc := s.cyc + s.crossingCycles sensitive base idx, bus := .read (base + zext16 idx) :: s.bus }) := by
  rw [readIndexed, chargeCrossing_eq, readAt_eq, peek_addCycles]
  rfl

/-- Resolution changes the cycle counter and the history alone, and only adds to them. -/
theorem resolve_frame (s : State) (reads sensitive : Bool) (o : Operand) :
    ∃ n l, (s.resolve reads sensitive o).2 = { s with cyc := s.cyc + n, bus := l ++ s.bus } := by
  cases o with
  | implied | accumulator | immediate _ | relative _ => exact ⟨0, [], rfl⟩
  | zeroPage ol => exact ⟨0, [_], rfl⟩
  | zeroPageX ol => exact ⟨0, [_], rfl⟩
  | zeroPageY ol => exact ⟨0, [_], rfl⟩
  | absolute ow =>
    cases reads
    · exact ⟨0, [], rfl⟩
    · exact ⟨0, [_], rfl⟩
  | absoluteX ow => exact ⟨_, [_], by rw [resolve, readIndexed_eq]; rfl⟩
  | absoluteY ow => exact ⟨_, [_], by rw [resolve, readIndexed_eq]; rfl⟩
  | indirect ow => exact ⟨0, [_, _], rfl⟩
  | indexedIndirectX ol => exact ⟨0, [_, _, _], by rw [resolve, readZP16_eq]; rfl⟩
  | indirectIndexedY ol => exact ⟨_, [_, _, _], by rw [resolve, readZP16_eq, readIndexed_eq, readPair_eq]; rfl⟩

/-- Preparation changes the cycle counter, the history and LATCH alone, and LATCH holds what it returns. -/
theorem prepare_frame (s : State) (i : Instr) :
    ∃ n l, (s.prepare i).2 = { s with cyc := s.cyc + n, bus := l ++ s.bus, latch := (s.prepare i).1 } := by
  obtain ⟨n, l, h⟩ := resolve_frame (s.addCycles (s.baseCyclesOf i)) (readsAbsolute i) (isCycleSensitive i) i.operand
  refine ⟨s.baseCyclesOf i + n, l, ?_⟩
  rw [prepare, h]
  simp [addCycles, Nat.add_assoc]

/-- The same with what preparation itself gives: the state a step's execute phase starts from. -/
theorem prepare_eq (s : State) (i : Instr) :
    (s.prepare i).2 =
      { s with cyc := (s.prepare i).2.cyc, latch := (s.prepare i).1, bus := (s.prepare i).2.bus } := by
  obtain ⟨n, l, h⟩ := prepare_frame s i
  rw [h]

/-- Fetching an operand byte reads it or does nothing. -/
theorem fetchOperand_frame (s : State) (wanted : Bool) (addr : Word) :
    ∃ l, (s.fetchOperand wanted addr).2 = { s with bus := l ++ s.bus } := by
  cases wanted
  · exact ⟨[], rfl⟩
  · exact ⟨[_], rfl⟩

theorem fetch_eq (s : State) :
    s.fetch =
      let op := s.peek s.pc
      let len := lengthOf s.cfg.stdExtras op
      let ol := State.fetchOperand { s with bus := .read s.pc :: s.bus } (2 ≤ len) (s.pc + 1)
      let oh := ol.2.fetchOperand (len = 3) (s.pc + 2)
      (instrOf s.cfg.stdExtras op ol.1 oh.1, oh.2) := rfl

/-- The instruction bytes are read, and nothing else changes. -/
theorem fetch_frame (s : State) : ∃ l, s.fetch.2 = { s with bus := l ++ s.bus } := by
  rw [fetch_eq]
  dsimp only
  generalize decide (2 ≤ lengthOf s.cfg.stdExtras (s.peek s.pc)) = two
  generalize decide (lengthOf s.cfg.stdExtras (s.peek s.pc) = 3) = three
  obtain ⟨l, hl⟩ := fetchOperand_frame { s with bus := .read s.pc :: s.bus } two (s.pc + 1)
  rw [hl]
  obtain ⟨l', hl'⟩ := fetchOperand_frame { s with bus := l ++ .read s.pc :: s.bus } three (s.pc + 2)
  rw [hl']
  exact ⟨l' ++ (l ++ [.read s.pc]), by simp⟩

/-- A control operation is its execute phase after preparation. -/
theorem runControl_eq (s : State) (i : Instr) (f : Latch → State → State) :
    s.runControl i f = f (s.prepare i).1 (s.prepare i).2 := rfl

/-- Any other operation is the same, with PC moved past it. -/
theorem runSequential_eq (s : State) (i : Instr) (f : Latch → State → State) :
    s.runSequential i f = { f (s.prepare i).1 (s.prepare i).2 with pc := s.pc + BitVec.ofNat 16 i.length } := rfl

end State

end Sys2Proof.Machine
end

