-- ==== Sys2Proof/Laws/Fields.lean ====
section
/-! SUPPORT. The fields after each shared operation, one simp lemma each, from the equations of Laws/Ops.lean. -/

namespace Sys2Proof.Machine.State

@[simp] theorem memRead_a (s : State) (q : Word) : ((s.memRead q).2).a = s.a := by
  rfl
@[simp] theorem memRead_x (s : State) (q : Word) : ((s.memRead q).2).x = s.x := by
  rfl
@[simp] theorem memRead_y (s : State) (q : Word) : ((s.memRead q).2).y = s.y := by
  rfl
@[simp] theorem memRead_sp (s : State) (q : Word) : ((s.memRead q).2).sp = s.sp := by
  rfl
@[simp] theorem memRead_p (s : State) (q : Word) : ((s.memRead q).2).p = s.p := by
  rfl
@[simp] theorem memRead_pc (s : State) (q : Word) : ((s.memRead q).2).pc = s.pc := by
  rfl
@[simp] theorem memRead_cyc (s : State) (q : Word) : ((s.memRead q).2).cyc = s.cyc := by
  rfl
@[simp] theorem memRead_latch (s : State) (q : Word) : ((s.memRead q).2).latch = s.latch := by
  rfl
@[simp] theorem memRead_fault (s : State) (q : Word) : ((s.memRead q).2).fault = s.fault := by
  rfl
@[simp] theorem memRead_mem (s : State) (q : Word) : ((s.memRead q).2).mem = s.mem := by
  rfl
@[simp] theorem memRead_opaqueRegions (s : State) (q : Word) : ((s.memRead q).2).opaqueRegions = s.opaqueRegions := by
  rfl
@[simp] theorem memRead_bus (s : State) (q : Word) : ((s.memRead q).2).bus = .read q :: s.bus := by
  rfl
@[simp] theorem memRead_commands (s : State) (q : Word) : ((s.memRead q).2).commands = s.commands := by
  rfl
@[simp] theorem memRead_cfg (s : State) (q : Word) : ((s.memRead q).2).cfg = s.cfg := by
  rfl
@[simp] theorem memRead_draws (s : State) (q : Word) : ((s.memRead q).2).draws = s.draws := by
  rfl

@[simp] theorem memWrite_a (s : State) (q : Word) (v : Byte) : (s.memWrite q v).a = s.a := by
  rw [memWrite_eq]
@[simp] theorem memWrite_x (s : State) (q : Word) (v : Byte) : (s.memWrite q v).x = s.x := by
  rw [memWrite_eq]
@[simp] theorem memWrite_y (s : State) (q : Word) (v : Byte) : (s.memWrite q v).y = s.y := by
  rw [memWrite_eq]
@[simp] theorem memWrite_sp (s : State) (q : Word) (v : Byte) : (s.memWrite q v).sp = s.sp := by
  rw [memWrite_eq]
@[simp] theorem memWrite_p (s : State) (q : Word) (v : Byte) : (s.memWrite q v).p = s.p := by
  rw [memWrite_eq]
@[simp] theorem memWrite_pc (s : State) (q : Word) (v : Byte) : (s.memWrite q v).pc = s.pc := by
  rw [memWrite_eq]
@[simp] theorem memWrite_cyc (s : State) (q : Word) (v : Byte) : (s.memWrite q v).cyc = s.cyc := by
  rw [memWrite_eq]
@[simp] theorem memWrite_latch (s : State) (q : Word) (v : Byte) : (s.memWrite q v).latch = s.latch := by
  rw [memWrite_eq]
@[simp] theorem memWrite_fault (s : State) (q : Word) (v : Byte) : (s.memWrite q v).fault = s.fault := by
  rw [memWrite_eq]
@[simp] theorem memWrite_mem (s : State) (q : Word) (v : Byte) : (s.memWrite q v).mem = s.ramAfter q v := by
  rw [memWrite_eq]
@[simp] theorem memWrite_opaqueRegions (s : State) (q : Word) (v : Byte) : (s.memWrite q v).opaqueRegions = s.opaqueRegions := by
  rw [memWrite_eq]
@[simp] theorem memWrite_bus (s : State) (q : Word) (v : Byte) : (s.memWrite q v).bus = .write q v :: s.bus := by
  rw [memWrite_eq]
@[simp] theorem memWrite_commands (s : State) (q : Word) (v : Byte) : (s.memWrite q v).commands = s.commands := by
  rw [memWrite_eq]
@[simp] theorem memWrite_cfg (s : State) (q : Word) (v : Byte) : (s.memWrite q v).cfg = s.cfg := by
  rw [memWrite_eq]
@[simp] theorem memWrite_draws (s : State) (q : Word) (v : Byte) : (s.memWrite q v).draws = s.draws := by
  rw [memWrite_eq]

@[simp] theorem push_a (s : State) (v : Byte) : (s.push v).a = s.a := by
  rw [push_eq]
@[simp] theorem push_x (s : State) (v : Byte) : (s.push v).x = s.x := by
  rw [push_eq]
@[simp] theorem push_y (s : State) (v : Byte) : (s.push v).y = s.y := by
  rw [push_eq]
@[simp] theorem push_sp (s : State) (v : Byte) : (s.push v).sp = s.sp - 1 := by
  rw [push_eq]
@[simp] theorem push_p (s : State) (v : Byte) : (s.push v).p = s.p := by
  rw [push_eq]
@[simp] theorem push_pc (s : State) (v : Byte) : (s.push v).pc = s.pc := by
  rw [push_eq]
@[simp] theorem push_cyc (s : State) (v : Byte) : (s.push v).cyc = s.cyc := by
  rw [push_eq]
@[simp] theorem push_latch (s : State) (v : Byte) : (s.push v).latch = s.latch := by
  rw [push_eq]
@[simp] theorem push_fault (s : State) (v : Byte) : (s.push v).fault = s.fault := by
  rw [push_eq]
@[simp] theorem push_mem (s : State) (v : Byte) : (s.push v).mem = s.ramAfter (stackAddr s.sp) v := by
  rw [push_eq]
@[simp] theorem push_opaqueRegions (s : State) (v : Byte) : (s.push v).opaqueRegions = s.opaqueRegions := by
  rw [push_eq]
@[simp] theorem push_bus (s : State) (v : Byte) : (s.push v).bus = .write (stackAddr s.sp) v :: s.bus := by
  rw [push_eq]
@[simp] theorem push_commands (s : State) (v : Byte) : (s.push v).commands = s.commands := by
  rw [push_eq]
@[simp] theorem push_cfg (s : State) (v : Byte) : (s.push v).cfg = s.cfg := by
  rw [push_eq]
@[simp] theorem push_draws (s : State) (v : Byte) : (s.push v).draws = s.draws := by
  rw [push_eq]

@[simp] theorem pop_a (s : State) : (s.pop.2).a = s.a := by
  rw [pop_eq]
@[simp] theorem pop_x (s : State) : (s.pop.2).x = s.x := by
  rw [pop_eq]
@[simp] theorem pop_y (s : State) : (s.pop.2).y = s.y := by
  rw [pop_eq]
@[simp] theorem pop_sp (s : State) : (s.pop.2).sp = s.sp + 1 := by
  rw [pop_eq]
@[simp] theorem pop_p (s : State) : (s.pop.2).p = s.p := by
  rw [pop_eq]
@[simp] theorem pop_pc (s : State) : (s.pop.2).pc = s.pc := by
  rw [pop_eq]
@[simp] theorem pop_cyc (s : State) : (s.pop.2).cyc = s.cyc := by
  rw [pop_eq]
@[simp] theorem pop_latch (s : State) : (s.pop.2).latch = s.latch := by
  rw [pop_eq]
@[simp] theorem pop_fault (s : State) : (s.pop.2).fault = s.fault := by
  rw [pop_eq]
@[simp] theorem pop_mem (s : State) : (s.pop.2).mem = s.mem := by
  rw [pop_eq]
@[simp] theorem pop_opaqueRegions (s : State) : (s.pop.2).opaqueRegions = s.opaqueRegions := by
  rw [pop_eq]
@[simp] theorem pop_bus (s : State) : (s.pop.2).bus = .read (stackAddr (s.sp + 1)) :: s.bus := by
  rw [pop_eq]
@[simp] theorem pop_commands (s : State) : (s.pop.2).commands = s.commands := by
  rw [pop_eq]
@[simp] theorem pop_cfg (s : State) : (s.pop.2).cfg = s.cfg := by
  rw [pop_eq]
@[simp] theorem pop_draws (s : State) : (s.pop.2).draws = s.draws := by
  rw [pop_eq]

@[simp] theorem resolve_a (s : State) (reads sensitive : Bool) (o : Operand) : ((s.resolve reads sensitive o).2).a = s.a := by
  obtain ⟨n, l, h⟩ := resolve_frame s reads sensitive o
  rw [h]
@[simp] theorem resolve_x (s : State) (reads sensitive : Bool) (o : Operand) : ((s.resolve reads sensitive o).2).x = s.x := by
  obtain ⟨n, l, h⟩ := resolve_frame s reads sensitive o
  rw [h]
@[simp] theorem resolve_y (s : State) (reads sensitive : Bool) (o : Operand) : ((s.resolve reads sensitive o).2).y = s.y := by
  obtain ⟨n, l, h⟩ := resolve_frame s reads sensitive o
  rw [h]
@[simp] theorem resolve_sp (s : State) (reads sensitive : Bool) (o : Operand) : ((s.resolve reads sensitive o).2).sp = s.sp := by
  obtain ⟨n, l, h⟩ := resolve_frame s reads sensitive o
  rw [h]
@[simp] theorem resolve_p (s : State) (reads sensitive : Bool) (o : Operand) : ((s.resolve reads sensitive o).2).p = s.p := by
  obtain ⟨n, l, h⟩ := resolve_frame s reads sensitive o
  rw [h]
@[simp] theorem resolve_pc (s : State) (reads sensitive : Bool) (o : Operand) : ((s.resolve reads sensitive o).2).pc = s.pc := by
  obtain ⟨n, l, h⟩ := resolve_frame s reads sensitive o
  rw [h]
@[simp] theorem resolve_latch (s : State) (reads sensitive : Bool) (o : Operand) : ((s.resolve reads sensitive o).2).latch = s.latch := by
  obtain ⟨n, l, h⟩ := resolve_frame s reads sensitive o
  rw [h]
@[simp] theorem resolve_fault (s : State) (reads sensitive : Bool) (o : Operand) : ((s.resolve reads sensitive o).2).fault = s.fault := by
  obtain ⟨n, l, h⟩ := resolve_frame s reads sensitive o
  rw [h]
@[simp] theorem resolve_mem (s : State) (reads sensitive : Bool) (o : Operand) : ((s.resolve reads sensitive o).2).mem = s.mem := by
  obtain ⟨n, l, h⟩ := resolve_frame s reads sensitive o
  rw [h]
@[simp] theorem resolve_opaqueRegions (s : State) (reads sensitive : Bool) (o : Operand) : ((s.resolve reads sensitive o).2).opaqueRegions = s.opaqueRegions := by
  obtain ⟨n, l, h⟩ := resolve_frame s reads sensitive o
  rw [h]
@[simp] theorem resolve_commands (s : State) (reads sensitive : Bool) (o : Operand) : ((s.resolve reads sensitive o).2).commands = s.commands := by
  obtain ⟨n, l, h⟩ := resolve_frame s reads sensitive o
  rw [h]
@[simp] theorem resolve_cfg (s : State) (reads sensitive : Bool) (o : Operand) : ((s.resolve reads sensitive o).2).cfg = s.cfg := by
  obtain ⟨n, l, h⟩ := resolve_frame s reads sensitive o
  rw [h]
@[simp] theorem resolve_draws (s : State) (reads sensitive : Bool) (o : Operand) : ((s.resolve reads sensitive o).2).draws = s.draws := by
  obtain ⟨n, l, h⟩ := resolve_frame s reads sensitive o
  rw [h]

@[simp] theorem prepare_a (s : State) (i : Instr) : ((s.prepare i).2).a = s.a := by
  obtain ⟨n, l, h⟩ := prepare_frame s i
  rw [h]
@[simp] theorem prepare_x (s : State) (i : Instr) : ((s.prepare i).2).x = s.x := by
  obtain ⟨n, l, h⟩ := prepare_frame s i
  rw [h]
@[simp] theorem prepare_y (s : State) (i : Instr) : ((s.prepare i).2).y = s.y := by
  obtain ⟨n, l, h⟩ := prepare_frame s i
  rw [h]
@[simp] theorem prepare_sp (s : State) (i : Instr) : ((s.prepare i).2).sp = s.sp := by
  obtain ⟨n, l, h⟩ := prepare_frame s i
  rw [h]
@[simp] theorem prepare_p (s : State) (i : Instr) : ((s.prepare i).2).p = s.p := by
  obtain ⟨n, l, h⟩ := prepare_frame s i
  rw [h]
@[simp] theorem prepare_pc (s : State) (i : Instr) : ((s.prepare i).2).pc = s.pc := by
  obtain ⟨n, l, h⟩ := prepare_frame s i
  rw [h]
@[simp] theorem prepare_latch (s : State) (i : Instr) : ((s.prepare i).2).latch = (s.prepare i).1 := by
  obtain ⟨n, l, h⟩ := prepare_frame s i
  rw [h]
@[simp] theorem prepare_fault (s : State) (i : Instr) : ((s.prepare i).2).fault = s.fault := by
  obtain ⟨n, l, h⟩ := prepare_frame s i
  rw [h]
@[simp] theorem prepare_mem (s : State) (i : Instr) : ((s.prepare i).2).mem = s.mem := by
  obtain ⟨n, l, h⟩ := prepare_frame s i
  rw [h]
@[simp] theorem prepare_opaqueRegions (s : State) (i : Instr) : ((s.prepare i).2).opaqueRegions = s.opaqueRegions := by
  obtain ⟨n, l, h⟩ := prepare_frame s i
  rw [h]
@[simp] theorem prepare_commands (s : State) (i : Instr) : ((s.prepare i).2).commands = s.commands := by
  obtain ⟨n, l, h⟩ := prepare_frame s i
  rw [h]
@[simp] theorem prepare_cfg (s : State) (i : Instr) : ((s.prepare i).2).cfg = s.cfg := by
  obtain ⟨n, l, h⟩ := prepare_frame s i
  rw [h]
@[simp] theorem prepare_draws (s : State) (i : Instr) : ((s.prepare i).2).draws = s.draws := by
  obtain ⟨n, l, h⟩ := prepare_frame s i
  rw [h]

@[simp] theorem fetch_a (s : State) : (s.fetch.2).a = s.a := by
  obtain ⟨l, h⟩ := fetch_frame s
  rw [h]
@[simp] theorem fetch_x (s : State) : (s.fetch.2).x = s.x := by
  obtain ⟨l, h⟩ := fetch_frame s
  rw [h]
@[simp] theorem fetch_y (s : State) : (s.fetch.2).y = s.y := by
  obtain ⟨l, h⟩ := fetch_frame s
  rw [h]
@[simp] theorem fetch_sp (s : State) : (s.fetch.2).sp = s.sp := by
  obtain ⟨l, h⟩ := fetch_frame s
  rw [h]
@[simp] theorem fetch_p (s : State) : (s.fetch.2).p = s.p := by
  obtain ⟨l, h⟩ := fetch_frame s
  rw [h]
@[simp] theorem fetch_pc (s : State) : (s.fetch.2).pc = s.pc := by
  obtain ⟨l, h⟩ := fetch_frame s
  rw [h]
@[simp] theorem fetch_cyc (s : State) : (s.fetch.2).cyc = s.cyc := by
  obtain ⟨l, h⟩ := fetch_frame s
  rw [h]
@[simp] theorem fetch_latch (s : State) : (s.fetch.2).latch = s.latch := by
  obtain ⟨l, h⟩ := fetch_frame s
  rw [h]
@[simp] theorem fetch_fault (s : State) : (s.fetch.2).fault = s.fault := by
  obtain ⟨l, h⟩ := fetch_frame s
  rw [h]
@[simp] theorem fetch_mem (s : State) : (s.fetch.2).mem = s.mem := by
  obtain ⟨l, h⟩ := fetch_frame s
  rw [h]
@[simp] theorem fetch_opaqueRegions (s : State) : (s.fetch.2).opaqueRegions = s.opaqueRegions := by
  obtain ⟨l, h⟩ := fetch_frame s
  rw [h]
@[simp] theorem fetch_commands (s : State) : (s.fetch.2).commands = s.commands := by
  obtain ⟨l, h⟩ := fetch_frame s
  rw [h]
@[simp] theorem fetch_cfg (s : State) : (s.fetch.2).cfg = s.cfg := by
  obtain ⟨l, h⟩ := fetch_frame s
  rw [h]
@[simp] theorem fetch_draws (s : State) : (s.fetch.2).draws = s.draws := by
  obtain ⟨l, h⟩ := fetch_frame s
  rw [h]

/-- What a read returns depends on the RAM, the regions and the history alone. -/
theorem peek_congr {s t : State} (hm : s.mem = t.mem) (hr : s.opaqueRegions = t.opaqueRegions) (hb : s.bus = t.bus)
    (addr : Word) : s.peek addr = t.peek addr := by
  unfold peek isOpaque
  rw [hm, hr, hb]

/-! ## The operations built on these -/

/-- Two pushes, high byte first. -/
theorem pushWord_eq (s : State) (w : Word) :
    s.pushWord w =
      { s with
        sp := s.sp - 2
        mem := (s.push (hiByte w)).ramAfter (stackAddr (s.sp - 1)) (loByte w)
        bus := .write (stackAddr (s.sp - 1)) (loByte w) :: .write (stackAddr s.sp) (hiByte w) :: s.bus } := by
  have h : s.sp - 1 - 1 = s.sp - 2 := by bv_omega
  rw [pushWord, push_eq (s.push _), push_sp, h]
  simp

/-- Two pops, low byte first. -/
theorem popWord_eq (s : State) :
    s.popWord =
      (joinBytes (State.peek { s with bus := .read (stackAddr (s.sp + 1)) :: s.bus } (stackAddr (s.sp + 2)))
         (s.peek (stackAddr (s.sp + 1))),
       { s with
         sp := s.sp + 2
         bus := .read (stackAddr (s.sp + 2)) :: .read (stackAddr (s.sp + 1)) :: s.bus }) := by
  have h : s.sp + 1 + 1 = s.sp + 2 := by bv_omega
  rw [popWord, pop_eq s.pop.2, pop_sp, h]
  rfl

/-- What JMI and BRK save: three pushes. -/
theorem saveContext_eq (s : State) (ret : Word) (status : Byte) :
    s.saveContext ret status =
      { s with
        sp := s.sp - 3
        mem := (s.pushWord ret).ramAfter (stackAddr (s.sp - 2)) status
        bus := .write (stackAddr (s.sp - 2)) status :: .write (stackAddr (s.sp - 1)) (loByte ret) ::
          .write (stackAddr s.sp) (hiByte ret) :: s.bus } := by
  have h : s.sp - 2 - 1 = s.sp - 3 := by bv_omega
  rw [saveContext, push_eq]
  simp only [pushWord_eq, h]

/-- Interrupt entry saves the context, jumps and counts. -/
theorem interruptEntry_eq (s : State) (target : Word) :
    s.interruptEntry target =
      { s.saveContext s.pc s.p.toByte with pc := target, cyc := s.cyc + s.cfg.jmiCycles } := by
  simp [interruptEntry, saveContext_eq]

/-- Return from interrupt: three pops. -/
theorem interruptReturn_eq (s : State) :
    s.interruptReturn =
      { s with
        sp := s.sp + 3
        p := Flags.ofByte (s.peek (stackAddr (s.sp + 1)) ||| maskU)
        pc := joinBytes
          (State.peek { s with bus := .read (stackAddr (s.sp + 2)) :: .read (stackAddr (s.sp + 1)) :: s.bus }
            (stackAddr (s.sp + 3)))
          (State.peek { s with bus := .read (stackAddr (s.sp + 1)) :: s.bus } (stackAddr (s.sp + 2)))
        bus := .read (stackAddr (s.sp + 3)) :: .read (stackAddr (s.sp + 2)) :: .read (stackAddr (s.sp + 1)) :: s.bus } := by
  have h1 : s.sp + 1 + 1 = s.sp + 2 := by bv_omega
  have h2 : s.sp + 1 + 2 = s.sp + 3 := by bv_omega
  simp only [interruptReturn, popWord_eq, pop_eq, peek_with_sp, h1, h2]
  rfl

/-- The software trap saves the context, sets I and reads the vector. -/
theorem softwareTrap_eq (s : State) :
    s.softwareTrap =
      let t := s.saveContext (s.pc + 2) (s.p.toByte ||| maskB)
      { t with
        p := { s.p with i := true }
        pc := joinBytes (State.peek { t with bus := .read irqBrkVector :: t.bus } (irqBrkVector + 1)) (t.peek irqBrkVector)
        bus := .read (irqBrkVector + 1) :: .read irqBrkVector :: t.bus } := by
  have h : (s.saveContext (s.pc + 2) (s.p.toByte ||| maskB)).p = s.p := by rw [saveContext_eq]
  simp only [softwareTrap, read16_eq, readPair_eq, h]
  rfl

/-- The write-back of a shift, field by field. -/
theorem writeBackShift_eq (s : State) (m : Mode) (ea : Word) (r : Byte × Flags) :
    s.writeBackShift m ea r =
      { s with
        a := if m = .accumulator then r.1 else s.a
        p := r.2
        mem := if m = .accumulator then s.mem else s.ramAfter ea r.1
        bus := if m = .accumulator then s.bus else .write ea r.1 :: s.bus } := by
  unfold writeBackShift
  split <;> simp [memWrite_eq]

/-- The store of INC and DEC. -/
theorem storeAndTest_eq (s : State) (ea : Word) (v : Byte) :
    s.storeAndTest ea v = { s with mem := s.ramAfter ea v, p := s.p.setZN v, bus := .write ea v :: s.bus } := by
  simp [storeAndTest, memWrite_eq]

/-- The bytes of RAM after a write, where the regions and the RAM are those of `s`. -/
theorem ramAfter_congr {s t : State} (hm : s.mem = t.mem) (hr : s.opaqueRegions = t.opaqueRegions) (addr : Word) (v : Byte) :
    s.ramAfter addr v = t.ramAfter addr v := by
  unfold ramAfter isOpaque
  rw [hm, hr]

end Sys2Proof.Machine.State
end

