-- ==== Sys2Proof/Laws/Exec.lean ====
section
/-! SUPPORT. One lemma per instruction: `exec` of it is a next state, written out over the state preparation leaves. The
provers cite these and unfold no meaning. -/

namespace Sys2Proof.Machine

namespace State

/-- The state a step's execute phase starts from: `s` but for CYC, LATCH and the history. -/
def prepared (s : State) (i : Instr) : State :=
  { s with cyc := (s.prepare i).2.cyc, latch := (s.prepare i).1, bus := (s.prepare i).2.bus }

theorem prepare_snd (s : State) (i : Instr) : (s.prepare i).2 = s.prepared i := prepare_eq s i

theorem runControl_prepared (s : State) (i : Instr) (f : Latch → State → State) :
    s.runControl i f = f (s.prepare i).1 (s.prepared i) := by
  rw [runControl_eq, prepare_snd]

theorem runSequential_prepared (s : State) (i : Instr) (f : Latch → State → State) :
    s.runSequential i f = { f (s.prepare i).1 (s.prepared i) with pc := s.pc + BitVec.ofNat 16 i.length } := by
  rw [runSequential_eq, prepare_snd]

/-- PC past an instruction of mode `m`. -/
def pastMode (s : State) (m : Mode) : Word := s.pc + BitVec.ofNat 16 m.length

/-- The history preparation leaves: the resolution's reads on top of `s.bus`. -/
theorem prepared_bus_suffix (s : State) (i : Instr) : ∃ l, (s.prepared i).bus = l ++ s.bus := by
  obtain ⟨n, l, h⟩ := prepare_frame s i
  exact ⟨l, by rw [← prepare_snd, h]⟩

/-- Preparation never lowers CYC. -/
theorem cyc_le_prepared (s : State) (i : Instr) : s.cyc ≤ (s.prepared i).cyc := by
  obtain ⟨n, l, h⟩ := prepare_frame s i
  rw [← prepare_snd, h]
  exact Nat.le_add_right _ _

/-- An Implied instruction resolves without an access. -/
theorem prepared_bus_implied {s : State} {i : Instr} (h : i.operand = .implied) : (s.prepared i).bus = s.bus := by
  simp [prepared, prepare, h, resolve]

theorem chargeCrossing_with_p (s : State) (q : Flags) (b : Bool) (w : Word) (x : Byte) :
    State.chargeCrossing { s with p := q } b w x = { s.chargeCrossing b w x with p := q } := by
  unfold chargeCrossing
  split <;> rfl

/-- Preparation neither reads nor writes P. -/
theorem prepare_with_p (s : State) (q : Flags) (i : Instr) :
    State.prepare { s with p := q } i = ((s.prepare i).1, { (s.prepare i).2 with p := q }) := by
  have hc : ∀ (t : State) b w x, State.chargeCrossing { t with p := q } b w x = { t.chargeCrossing b w x with p := q } :=
    fun t b w x => chargeCrossing_with_p t q b w x
  have hb : State.addCycles { s with p := q } (State.baseCyclesOf { s with p := q } i) =
      { s.addCycles (s.baseCyclesOf i) with p := q } := rfl
  have hr : ∀ (t : State) reads sensitive o, State.resolve { t with p := q } reads sensitive o =
      ((t.resolve reads sensitive o).1, { (t.resolve reads sensitive o).2 with p := q }) := by
    intro t reads sensitive o
    cases o
    case absolute ow => cases reads <;> rfl
    case absoluteX ow => simp only [resolve, readIndexed, hc]; rfl
    case absoluteY ow => simp only [resolve, readIndexed, hc]; rfl
    case indexedIndirectX ol => simp only [resolve, readZP16_eq, readPair_eq]; rfl
    case indirectIndexedY ol =>
      have hz : State.readZP16 { t with p := q } ol = ((t.readZP16 ol).1, { (t.readZP16 ol).2 with p := q }) := by
        rw [readZP16_eq, readZP16_eq]
        rfl
      simp only [resolve, hz, readIndexed, hc]
      rfl
    all_goals rfl
  rw [prepare, hb, hr]
  rfl

theorem chargeCrossing_with_sp (s : State) (q : Byte) (b : Bool) (w : Word) (x : Byte) :
    State.chargeCrossing { s with sp := q } b w x = { s.chargeCrossing b w x with sp := q } := by
  unfold chargeCrossing
  split <;> rfl

/-- Preparation neither reads nor writes S. -/
theorem prepare_with_sp (s : State) (q : Byte) (i : Instr) :
    State.prepare { s with sp := q } i = ((s.prepare i).1, { (s.prepare i).2 with sp := q }) := by
  have hc : ∀ (t : State) b w x, State.chargeCrossing { t with sp := q } b w x = { t.chargeCrossing b w x with sp := q } :=
    fun t b w x => chargeCrossing_with_sp t q b w x
  have hb : State.addCycles { s with sp := q } (State.baseCyclesOf { s with sp := q } i) =
      { s.addCycles (s.baseCyclesOf i) with sp := q } := rfl
  have hr : ∀ (t : State) reads sensitive o, State.resolve { t with sp := q } reads sensitive o =
      ((t.resolve reads sensitive o).1, { (t.resolve reads sensitive o).2 with sp := q }) := by
    intro t reads sensitive o
    cases o
    case absolute ow => cases reads <;> rfl
    case absoluteX ow => simp only [resolve, readIndexed, hc]; rfl
    case absoluteY ow => simp only [resolve, readIndexed, hc]; rfl
    case indexedIndirectX ol => simp only [resolve, readZP16_eq, readPair_eq]; rfl
    case indirectIndexedY ol =>
      have hz : State.readZP16 { t with sp := q } ol = ((t.readZP16 ol).1, { (t.readZP16 ol).2 with sp := q }) := by
        rw [readZP16_eq, readZP16_eq]
        rfl
      simp only [resolve, hz, readIndexed, hc]
      rfl
    all_goals rfl
  rw [prepare, hb, hr]
  rfl

end State

open State

theorem exec_lda (m : Operand) (s : State) :
    exec (.lda m) s = .next { s.prepared (.lda m) with a := (s.prepare (.lda m)).1.val, p := s.p.setZN (s.prepare (.lda m)).1.val, pc := s.pastMode m.mode } := by
  show Host.Outcome.next _ = _
  rw [runSequential_prepared]
  rfl

theorem exec_ldx (m : Operand) (s : State) :
    exec (.ldx m) s = .next { s.prepared (.ldx m) with x := (s.prepare (.ldx m)).1.val, p := s.p.setZN (s.prepare (.ldx m)).1.val, pc := s.pastMode m.mode } := by
  show Host.Outcome.next _ = _
  rw [runSequential_prepared]
  rfl

theorem exec_ldy (m : Operand) (s : State) :
    exec (.ldy m) s = .next { s.prepared (.ldy m) with y := (s.prepare (.ldy m)).1.val, p := s.p.setZN (s.prepare (.ldy m)).1.val, pc := s.pastMode m.mode } := by
  show Host.Outcome.next _ = _
  rw [runSequential_prepared]
  rfl

theorem exec_sta (m : Operand) (s : State) :
    exec (.sta m) s = .next { s.prepared (.sta m) with mem := s.ramAfter (s.prepare (.sta m)).1.ea s.a, bus := .write (s.prepare (.sta m)).1.ea s.a :: (s.prepared (.sta m)).bus, pc := s.pastMode m.mode } := by
  show Host.Outcome.next _ = _
  rw [runSequential_prepared]
  simp only [memWrite_eq]
  rfl

theorem exec_stx (m : Operand) (s : State) :
    exec (.stx m) s = .next { s.prepared (.stx m) with mem := s.ramAfter (s.prepare (.stx m)).1.ea s.x, bus := .write (s.prepare (.stx m)).1.ea s.x :: (s.prepared (.stx m)).bus, pc := s.pastMode m.mode } := by
  show Host.Outcome.next _ = _
  rw [runSequential_prepared]
  simp only [memWrite_eq]
  rfl

theorem exec_sty (m : Operand) (s : State) :
    exec (.sty m) s = .next { s.prepared (.sty m) with mem := s.ramAfter (s.prepare (.sty m)).1.ea s.y, bus := .write (s.prepare (.sty m)).1.ea s.y :: (s.prepared (.sty m)).bus, pc := s.pastMode m.mode } := by
  show Host.Outcome.next _ = _
  rw [runSequential_prepared]
  simp only [memWrite_eq]
  rfl

theorem exec_asl (m : Operand) (s : State) :
    exec (.asl m) s = .next { s.prepared (.asl m) with a := if m.mode = .accumulator then (shiftLeft s.p (s.prepare (.asl m)).1.val false).1 else s.a, p := (shiftLeft s.p (s.prepare (.asl m)).1.val false).2, mem := if m.mode = .accumulator then s.mem else s.ramAfter (s.prepare (.asl m)).1.ea (shiftLeft s.p (s.prepare (.asl m)).1.val false).1, bus := if m.mode = .accumulator then (s.prepared (.asl m)).bus else .write (s.prepare (.asl m)).1.ea (shiftLeft s.p (s.prepare (.asl m)).1.val false).1 :: (s.prepared (.asl m)).bus, pc := s.pastMode m.mode } := by
  show Host.Outcome.next _ = _
  rw [runSequential_prepared]
  simp only [writeBackShift_eq]
  rfl

theorem exec_lsr (m : Operand) (s : State) :
    exec (.lsr m) s = .next { s.prepared (.lsr m) with a := if m.mode = .accumulator then (shiftRight s.p (s.prepare (.lsr m)).1.val false).1 else s.a, p := (shiftRight s.p (s.prepare (.lsr m)).1.val false).2, mem := if m.mode = .accumulator then s.mem else s.ramAfter (s.prepare (.lsr m)).1.ea (shiftRight s.p (s.prepare (.lsr m)).1.val false).1, bus := if m.mode = .accumulator then (s.prepared (.lsr m)).bus else .write (s.prepare (.lsr m)).1.ea (shiftRight s.p (s.prepare (.lsr m)).1.val false).1 :: (s.prepared (.lsr m)).bus, pc := s.pastMode m.mode } := by
  show Host.Outcome.next _ = _
  rw [runSequential_prepared]
  simp only [writeBackShift_eq]
  rfl

theorem exec_rol (m : Operand) (s : State) :
    exec (.rol m) s = .next { s.prepared (.rol m) with a := if m.mode = .accumulator then (shiftLeft s.p (s.prepare (.rol m)).1.val true).1 else s.a, p := (shiftLeft s.p (s.prepare (.rol m)).1.val true).2, mem := if m.mode = .accumulator then s.mem else s.ramAfter (s.prepare (.rol m)).1.ea (shiftLeft s.p (s.prepare (.rol m)).1.val true).1, bus := if m.mode = .accumulator then (s.prepared (.rol m)).bus else .write (s.prepare (.rol m)).1.ea (shiftLeft s.p (s.prepare (.rol m)).1.val true).1 :: (s.prepared (.rol m)).bus, pc := s.pastMode m.mode } := by
  show Host.Outcome.next _ = _
  rw [runSequential_prepared]
  simp only [writeBackShift_eq]
  rfl

theorem exec_ror (m : Operand) (s : State) :
    exec (.ror m) s = .next { s.prepared (.ror m) with a := if m.mode = .accumulator then (shiftRight s.p (s.prepare (.ror m)).1.val true).1 else s.a, p := (shiftRight s.p (s.prepare (.ror m)).1.val true).2, mem := if m.mode = .accumulator then s.mem else s.ramAfter (s.prepare (.ror m)).1.ea (shiftRight s.p (s.prepare (.ror m)).1.val true).1, bus := if m.mode = .accumulator then (s.prepared (.ror m)).bus else .write (s.prepare (.ror m)).1.ea (shiftRight s.p (s.prepare (.ror m)).1.val true).1 :: (s.prepared (.ror m)).bus, pc := s.pastMode m.mode } := by
  show Host.Outcome.next _ = _
  rw [runSequential_prepared]
  simp only [writeBackShift_eq]
  rfl

theorem exec_inc (m : Operand) (s : State) :
    exec (.inc m) s = .next { s.prepared (.inc m) with mem := s.ramAfter (s.prepare (.inc m)).1.ea ((s.prepare (.inc m)).1.val + 1), p := s.p.setZN ((s.prepare (.inc m)).1.val + 1), bus := .write (s.prepare (.inc m)).1.ea ((s.prepare (.inc m)).1.val + 1) :: (s.prepared (.inc m)).bus, pc := s.pastMode m.mode } := by
  show Host.Outcome.next _ = _
  rw [runSequential_prepared]
  simp only [storeAndTest_eq]
  rfl

theorem exec_dec (m : Operand) (s : State) :
    exec (.dec m) s = .next { s.prepared (.dec m) with mem := s.ramAfter (s.prepare (.dec m)).1.ea ((s.prepare (.dec m)).1.val - 1), p := s.p.setZN ((s.prepare (.dec m)).1.val - 1), bus := .write (s.prepare (.dec m)).1.ea ((s.prepare (.dec m)).1.val - 1) :: (s.prepared (.dec m)).bus, pc := s.pastMode m.mode } := by
  show Host.Outcome.next _ = _
  rw [runSequential_prepared]
  simp only [storeAndTest_eq]
  rfl

theorem exec_inx (s : State) :
    exec .inx s = .next { s.prepared .inx with x := s.x + 1, p := s.p.setZN (s.x + 1), pc := s.pastMode .implied } := by
  show Host.Outcome.next _ = _
  rw [runSequential_prepared]
  rfl

theorem exec_iny (s : State) :
    exec .iny s = .next { s.prepared .iny with y := s.y + 1, p := s.p.setZN (s.y + 1), pc := s.pastMode .implied } := by
  show Host.Outcome.next _ = _
  rw [runSequential_prepared]
  rfl

theorem exec_dex (s : State) :
    exec .dex s = .next { s.prepared .dex with x := s.x - 1, p := s.p.setZN (s.x - 1), pc := s.pastMode .implied } := by
  show Host.Outcome.next _ = _
  rw [runSequential_prepared]
  rfl

theorem exec_dey (s : State) :
    exec .dey s = .next { s.prepared .dey with y := s.y - 1, p := s.p.setZN (s.y - 1), pc := s.pastMode .implied } := by
  show Host.Outcome.next _ = _
  rw [runSequential_prepared]
  rfl

theorem exec_tax (s : State) :
    exec .tax s = .next { s.prepared .tax with x := s.a, p := s.p.setZN s.a, pc := s.pastMode .implied } := by
  show Host.Outcome.next _ = _
  rw [runSequential_prepared]
  rfl

theorem exec_txa (s : State) :
    exec .txa s = .next { s.prepared .txa with a := s.x, p := s.p.setZN s.x, pc := s.pastMode .implied } := by
  show Host.Outcome.next _ = _
  rw [runSequential_prepared]
  rfl

theorem exec_tay (s : State) :
    exec .tay s = .next { s.prepared .tay with y := s.a, p := s.p.setZN s.a, pc := s.pastMode .implied } := by
  show Host.Outcome.next _ = _
  rw [runSequential_prepared]
  rfl

theorem exec_tya (s : State) :
    exec .tya s = .next { s.prepared .tya with a := s.y, p := s.p.setZN s.y, pc := s.pastMode .implied } := by
  show Host.Outcome.next _ = _
  rw [runSequential_prepared]
  rfl

theorem exec_tsx (s : State) :
    exec .tsx s = .next { s.prepared .tsx with x := s.sp, p := s.p.setZN s.sp, pc := s.pastMode .implied } := by
  show Host.Outcome.next _ = _
  rw [runSequential_prepared]
  rfl

theorem exec_txs (s : State) :
    exec .txs s = .next { s.prepared .txs with sp := s.x, pc := s.pastMode .implied } := by
  show Host.Outcome.next _ = _
  rw [runSequential_prepared]
  rfl

theorem exec_sec (s : State) :
    exec .sec s = .next { s.prepared .sec with p := { s.p with c := true }, pc := s.pastMode .implied } := by
  show Host.Outcome.next _ = _
  rw [runSequential_prepared]
  rfl

theorem exec_clc (s : State) :
    exec .clc s = .next { s.prepared .clc with p := { s.p with c := false }, pc := s.pastMode .implied } := by
  show Host.Outcome.next _ = _
  rw [runSequential_prepared]
  rfl

theorem exec_clv (s : State) :
    exec .clv s = .next { s.prepared .clv with p := { s.p with v := false }, pc := s.pastMode .implied } := by
  show Host.Outcome.next _ = _
  rw [runSequential_prepared]
  rfl

theorem exec_sei (s : State) :
    exec .sei s = .next { s.prepared .sei with p := { s.p with i := true }, pc := s.pastMode .implied } := by
  show Host.Outcome.next _ = _
  rw [runSequential_prepared]
  rfl

theorem exec_sed (s : State) :
    exec .sed s = .next { s.prepared .sed with p := { s.p with d := true }, pc := s.pastMode .implied } := by
  show Host.Outcome.next _ = _
  rw [runSequential_prepared]
  rfl

theorem exec_cld (s : State) :
    exec .cld s = .next { s.prepared .cld with p := { s.p with d := false }, pc := s.pastMode .implied } := by
  show Host.Outcome.next _ = _
  rw [runSequential_prepared]
  rfl

theorem exec_cli (s : State) :
    exec .cli s = .next { s.prepared .cli with p := { s.p with i := false }, pc := s.pastMode .implied } := by
  show Host.Outcome.next _ = _
  rw [runSequential_prepared]
  rfl

theorem exec_pha (s : State) :
    exec .pha s = .next { s.prepared .pha with sp := s.sp - 1, mem := s.ramAfter (stackAddr s.sp) s.a, bus := .write (stackAddr s.sp) s.a :: (s.prepared .pha).bus, pc := s.pastMode .implied } := by
  show Host.Outcome.next _ = _
  rw [runSequential_prepared]
  simp only [push_eq]
  rfl

theorem exec_pla (s : State) :
    exec .pla s = .next { s.prepared .pla with a := s.peek (stackAddr (s.sp + 1)), sp := s.sp + 1, p := s.p.setZN (s.peek (stackAddr (s.sp + 1))), bus := .read (stackAddr (s.sp + 1)) :: (s.prepared .pla).bus, pc := s.pastMode .implied } := by
  show Host.Outcome.next _ = _
  rw [runSequential_prepared]
  rfl

theorem exec_php (s : State) :
    exec .php s = .next { s.prepared .php with sp := s.sp - 1, mem := s.ramAfter (stackAddr s.sp) (s.p.toByte ||| maskB), bus := .write (stackAddr s.sp) (s.p.toByte ||| maskB) :: (s.prepared .php).bus, pc := s.pastMode .implied } := by
  show Host.Outcome.next _ = _
  rw [runSequential_prepared]
  simp only [push_eq]
  rfl

theorem exec_plp (s : State) :
    exec .plp s = .next { s.prepared .plp with sp := s.sp + 1, p := Flags.ofByte ((s.peek (stackAddr (s.sp + 1)) ||| maskU) &&& ~~~maskB), bus := .read (stackAddr (s.sp + 1)) :: (s.prepared .plp).bus, pc := s.pastMode .implied } := by
  show Host.Outcome.next _ = _
  rw [runSequential_prepared]
  rfl

theorem exec_cmp (m : Operand) (s : State) :
    exec (.cmp m) s = .next { s.prepared (.cmp m) with p := s.p.compare (s.prepare (.cmp m)).1.val s.a, pc := s.pastMode m.mode } := by
  show Host.Outcome.next _ = _
  rw [runSequential_prepared]
  rfl

theorem exec_cpx (m : Operand) (s : State) :
    exec (.cpx m) s = .next { s.prepared (.cpx m) with p := s.p.compare (s.prepare (.cpx m)).1.val s.x, pc := s.pastMode m.mode } := by
  show Host.Outcome.next _ = _
  rw [runSequential_prepared]
  rfl

theorem exec_cpy (m : Operand) (s : State) :
    exec (.cpy m) s = .next { s.prepared (.cpy m) with p := s.p.compare (s.prepare (.cpy m)).1.val s.y, pc := s.pastMode m.mode } := by
  show Host.Outcome.next _ = _
  rw [runSequential_prepared]
  rfl

theorem exec_and (m : Operand) (s : State) :
    exec (.and m) s = .next { s.prepared (.and m) with a := s.a &&& (s.prepare (.and m)).1.val, p := s.p.setZN (s.a &&& (s.prepare (.and m)).1.val), pc := s.pastMode m.mode } := by
  show Host.Outcome.next _ = _
  rw [runSequential_prepared]
  rfl

theorem exec_ora (m : Operand) (s : State) :
    exec (.ora m) s = .next { s.prepared (.ora m) with a := s.a ||| (s.prepare (.ora m)).1.val, p := s.p.setZN (s.a ||| (s.prepare (.ora m)).1.val), pc := s.pastMode m.mode } := by
  show Host.Outcome.next _ = _
  rw [runSequential_prepared]
  rfl

theorem exec_eor (m : Operand) (s : State) :
    exec (.eor m) s = .next { s.prepared (.eor m) with a := s.a ^^^ (s.prepare (.eor m)).1.val, p := s.p.setZN (s.a ^^^ (s.prepare (.eor m)).1.val), pc := s.pastMode m.mode } := by
  show Host.Outcome.next _ = _
  rw [runSequential_prepared]
  rfl

theorem exec_bit (m : Operand) (s : State) :
    exec (.bit m) s = .next { s.prepared (.bit m) with p := s.p.bitTest (s.prepare (.bit m)).1.val s.a, pc := s.pastMode m.mode } := by
  show Host.Outcome.next _ = _
  rw [runSequential_prepared]
  rfl

theorem exec_adc (m : Operand) (s : State) :
    exec (.adc m) s = .next { s.prepared (.adc m) with a := (addWithCarry s.p s.a (s.prepare (.adc m)).1.val).1, p := (addWithCarry s.p s.a (s.prepare (.adc m)).1.val).2, pc := s.pastMode m.mode } := by
  show Host.Outcome.next _ = _
  rw [runSequential_prepared]
  rfl

theorem exec_sbc (m : Operand) (s : State) :
    exec (.sbc m) s = .next { s.prepared (.sbc m) with a := (addWithCarry s.p s.a (~~~(s.prepare (.sbc m)).1.val)).1, p := (addWithCarry s.p s.a (~~~(s.prepare (.sbc m)).1.val)).2, pc := s.pastMode m.mode } := by
  show Host.Outcome.next _ = _
  rw [runSequential_prepared]
  rfl

theorem exec_jmp (m : Operand) (s : State) :
    exec (.jmp m) s = .next { s.prepared (.jmp m) with pc := (s.prepare (.jmp m)).1.ea } := by
  show Host.Outcome.next _ = _
  rw [runControl_prepared]

theorem exec_jsr (target : Word) (s : State) :
    exec (.jsr target) s = .next { s.prepared (.jsr target) with sp := s.sp - 2, mem := (s.push (hiByte (s.pc + 2))).ramAfter (stackAddr (s.sp - 1)) (loByte (s.pc + 2)), bus := .write (stackAddr (s.sp - 1)) (loByte (s.pc + 2)) :: .write (stackAddr s.sp) (hiByte (s.pc + 2)) :: (s.prepared (.jsr target)).bus, pc := target } := by
  show Host.Outcome.next _ = _
  rw [runControl_prepared]
  simp only [pushWord_eq, push_eq]
  rfl

theorem exec_rts (s : State) :
    exec .rts s = .next { s.prepared .rts with sp := s.sp + 2, pc := joinBytes (State.peek { s with bus := .read (stackAddr (s.sp + 1)) :: s.bus } (stackAddr (s.sp + 2))) (s.peek (stackAddr (s.sp + 1))) + 1, bus := .read (stackAddr (s.sp + 2)) :: .read (stackAddr (s.sp + 1)) :: (s.prepared .rts).bus } := by
  show Host.Outcome.next _ = _
  rw [runControl_prepared]
  simp only [popWord_eq]
  rfl

theorem exec_rti (s : State) :
    exec .rti s = .next { s.prepared .rti with sp := s.sp + 3, p := Flags.ofByte (s.peek (stackAddr (s.sp + 1)) ||| maskU), pc := joinBytes (State.peek { s with bus := .read (stackAddr (s.sp + 2)) :: .read (stackAddr (s.sp + 1)) :: s.bus } (stackAddr (s.sp + 3))) (State.peek { s with bus := .read (stackAddr (s.sp + 1)) :: s.bus } (stackAddr (s.sp + 2))), bus := .read (stackAddr (s.sp + 3)) :: .read (stackAddr (s.sp + 2)) :: .read (stackAddr (s.sp + 1)) :: (s.prepared .rti).bus } := by
  show Host.Outcome.next _ = _
  rw [runControl_prepared]
  simp only [interruptReturn_eq]
  rfl

theorem exec_bpl (ol : Byte) (s : State) :
    exec (.bpl ol) s = .next { s.prepared (.bpl ol) with pc := if !s.p.n then (s.prepare (.bpl ol)).1.ea else s.pc + 2 } := by
  show Host.Outcome.next _ = _
  rw [runControl_prepared]
  rfl

theorem exec_bmi (ol : Byte) (s : State) :
    exec (.bmi ol) s = .next { s.prepared (.bmi ol) with pc := if s.p.n then (s.prepare (.bmi ol)).1.ea else s.pc + 2 } := by
  show Host.Outcome.next _ = _
  rw [runControl_prepared]
  rfl

theorem exec_bvc (ol : Byte) (s : State) :
    exec (.bvc ol) s = .next { s.prepared (.bvc ol) with pc := if !s.p.v then (s.prepare (.bvc ol)).1.ea else s.pc + 2 } := by
  show Host.Outcome.next _ = _
  rw [runControl_prepared]
  rfl

theorem exec_bvs (ol : Byte) (s : State) :
    exec (.bvs ol) s = .next { s.prepared (.bvs ol) with pc := if s.p.v then (s.prepare (.bvs ol)).1.ea else s.pc + 2 } := by
  show Host.Outcome.next _ = _
  rw [runControl_prepared]
  rfl

theorem exec_bcc (ol : Byte) (s : State) :
    exec (.bcc ol) s = .next { s.prepared (.bcc ol) with pc := if !s.p.c then (s.prepare (.bcc ol)).1.ea else s.pc + 2 } := by
  show Host.Outcome.next _ = _
  rw [runControl_prepared]
  rfl

theorem exec_bcs (ol : Byte) (s : State) :
    exec (.bcs ol) s = .next { s.prepared (.bcs ol) with pc := if s.p.c then (s.prepare (.bcs ol)).1.ea else s.pc + 2 } := by
  show Host.Outcome.next _ = _
  rw [runControl_prepared]
  rfl

theorem exec_bne (ol : Byte) (s : State) :
    exec (.bne ol) s = .next { s.prepared (.bne ol) with pc := if !s.p.z then (s.prepare (.bne ol)).1.ea else s.pc + 2 } := by
  show Host.Outcome.next _ = _
  rw [runControl_prepared]
  rfl

theorem exec_beq (ol : Byte) (s : State) :
    exec (.beq ol) s = .next { s.prepared (.beq ol) with pc := if s.p.z then (s.prepare (.beq ol)).1.ea else s.pc + 2 } := by
  show Host.Outcome.next _ = _
  rw [runControl_prepared]
  rfl

theorem exec_nop (s : State) :
    exec .nop s = .next { s.prepared .nop with pc := s.pastMode .implied } := by
  show Host.Outcome.next _ = _
  rw [runSequential_prepared]
  rfl

/-- JMI, by whether FAULT is set. -/
theorem exec_jmi (target : Word) (s : State) :
    exec (.jmi target) s = .next (if s.fault.isSome then s else s.interruptEntry target) := rfl

/-- JMI with no fault. -/
theorem exec_jmi_entry (target : Word) {s : State} (h : s.fault = none) :
    exec (.jmi target) s =
      .next { s.saveContext s.pc s.p.toByte with pc := target, cyc := s.cyc + s.cfg.jmiCycles } := by
  rw [exec_jmi, h, interruptEntry_eq]
  rfl

theorem exec_null (op : Byte) (s : State) : exec (.null op) s = .next { s with fault := some ⟨s.pc, op⟩ } := rfl

/-- BRK is the software trap after preparation. -/
theorem exec_brk (s : State) : exec .brk s = .next (s.prepared .brk).softwareTrap := by
  show Host.Outcome.next _ = _
  rw [runControl_prepared]

/-- Every instruction answers a next state. -/
theorem exec_isNext (i : Instr) (s : State) : ∃ t, exec i s = .next t := by
  cases i
  all_goals exact ⟨_, rfl⟩

end Sys2Proof.Machine
end

