-- ==== Sys2Proof/Laws/PerInstr.lean ====
section
/-! SUPPORT. The per-instruction family EncodedLength: a well-formed instruction has as many bytes as its mode's length, and
JMI alone has none (30_encoding.md R65, R66, R69). -/

namespace Sys2Proof.Laws.EncodedLength

/-- Every well-formed instruction but JMI is encoded, in as many bytes as its length. -/
def Statement (i : Instr) : Prop :=
  ∀ x : Bool, i.wellFormed x = true →
    match encode i with
    | some bs => bs.length = i.length
    | none => ∃ target, i = .jmi target

theorem lda (m : Operand) : Statement (.lda m) := by
  intro x h
  cases m <;> first | rfl | cases h
theorem ldx (m : Operand) : Statement (.ldx m) := by
  intro x h
  cases m <;> first | rfl | cases h
theorem ldy (m : Operand) : Statement (.ldy m) := by
  intro x h
  cases m <;> first | rfl | cases h
theorem sta (m : Operand) : Statement (.sta m) := by
  intro x h
  cases m <;> first | rfl | cases h
theorem stx (m : Operand) : Statement (.stx m) := by
  intro x h
  cases m <;> first | rfl | cases h
theorem sty (m : Operand) : Statement (.sty m) := by
  intro x h
  cases m <;> first | rfl | cases h
theorem asl (m : Operand) : Statement (.asl m) := by
  intro x h
  cases m <;> first | rfl | cases h
theorem lsr (m : Operand) : Statement (.lsr m) := by
  intro x h
  cases m <;> first | rfl | cases h
theorem rol (m : Operand) : Statement (.rol m) := by
  intro x h
  cases m <;> first | rfl | cases h
theorem ror (m : Operand) : Statement (.ror m) := by
  intro x h
  cases m <;> first | rfl | cases h
theorem inc (m : Operand) : Statement (.inc m) := by
  intro x h
  cases m <;> first | rfl | cases h
theorem dec (m : Operand) : Statement (.dec m) := by
  intro x h
  cases m <;> first | rfl | cases h
theorem inx : Statement .inx := fun _ _ => rfl
theorem iny : Statement .iny := fun _ _ => rfl
theorem dex : Statement .dex := fun _ _ => rfl
theorem dey : Statement .dey := fun _ _ => rfl
theorem tax : Statement .tax := fun _ _ => rfl
theorem txa : Statement .txa := fun _ _ => rfl
theorem tay : Statement .tay := fun _ _ => rfl
theorem tya : Statement .tya := fun _ _ => rfl
theorem tsx : Statement .tsx := fun _ _ => rfl
theorem txs : Statement .txs := fun _ _ => rfl
theorem sec : Statement .sec := fun _ _ => rfl
theorem clc : Statement .clc := fun _ _ => rfl
theorem clv : Statement .clv := fun _ _ => rfl
theorem sei : Statement .sei := fun _ _ => rfl
theorem sed : Statement .sed := fun _ _ => rfl
theorem cld : Statement .cld := fun _ _ => rfl
theorem cli : Statement .cli := fun _ _ => rfl
theorem pha : Statement .pha := fun _ _ => rfl
theorem pla : Statement .pla := fun _ _ => rfl
theorem php : Statement .php := fun _ _ => rfl
theorem plp : Statement .plp := fun _ _ => rfl
theorem cmp (m : Operand) : Statement (.cmp m) := by
  intro x h
  cases m <;> first | rfl | cases h
theorem cpx (m : Operand) : Statement (.cpx m) := by
  intro x h
  cases m <;> first | rfl | cases h
theorem cpy (m : Operand) : Statement (.cpy m) := by
  intro x h
  cases m <;> first | rfl | cases h
theorem and (m : Operand) : Statement (.and m) := by
  intro x h
  cases m <;> first | rfl | cases h
theorem ora (m : Operand) : Statement (.ora m) := by
  intro x h
  cases m <;> first | rfl | cases h
theorem eor (m : Operand) : Statement (.eor m) := by
  intro x h
  cases m <;> first | rfl | cases h
theorem bit (m : Operand) : Statement (.bit m) := by
  intro x h
  cases m <;> first | rfl | cases h
theorem adc (m : Operand) : Statement (.adc m) := by
  intro x h
  cases m <;> first | rfl | cases h
theorem sbc (m : Operand) : Statement (.sbc m) := by
  intro x h
  cases m <;> first | rfl | cases h
theorem jmp (m : Operand) : Statement (.jmp m) := by
  intro x h
  cases m <;> first | rfl | cases h
theorem jsr (target : Word) : Statement (.jsr target) := fun _ _ => rfl
theorem rts : Statement .rts := fun _ _ => rfl
theorem jmi (target : Word) : Statement (.jmi target) := fun _ _ => ⟨target, rfl⟩
theorem rti : Statement .rti := fun _ _ => rfl
theorem bpl (ol : Byte) : Statement (.bpl ol) := fun _ _ => rfl
theorem bmi (ol : Byte) : Statement (.bmi ol) := fun _ _ => rfl
theorem bvc (ol : Byte) : Statement (.bvc ol) := fun _ _ => rfl
theorem bvs (ol : Byte) : Statement (.bvs ol) := fun _ _ => rfl
theorem bcc (ol : Byte) : Statement (.bcc ol) := fun _ _ => rfl
theorem bcs (ol : Byte) : Statement (.bcs ol) := fun _ _ => rfl
theorem bne (ol : Byte) : Statement (.bne ol) := fun _ _ => rfl
theorem beq (ol : Byte) : Statement (.beq ol) := fun _ _ => rfl
theorem null (op : Byte) : Statement (.null op) := fun _ _ => rfl
theorem brk : Statement .brk := fun _ _ => rfl
theorem nop : Statement .nop := fun _ _ => rfl

end Sys2Proof.Laws.EncodedLength
end

