-- ==== Sys2Proof/Laws/Stack.lean ====
section
/-! SUPPORT. What the stack operations leave in RAM: each byte pushed at its own address, every other byte as before, and
the canonical form kept. -/

namespace Sys2Proof.Machine.State

theorem stackAddr_inj {p q : Byte} (h : stackAddr p = stackAddr q) : p = q := by
  have h' := congrArg BitVec.toNat h
  rw [stackAddr_toNat, stackAddr_toNat] at h'
  exact BitVec.eq_of_toNat_eq (by omega)

theorem wf_push {s : State} (h : s.mem.wf = true) (v : Byte) : (s.push v).mem.wf = true := by
  rw [push_eq]
  exact wf_ramAfter h _ _

theorem read_push {s : State} (h : s.mem.wf = true) (v : Byte) (b : Nat) :
    (s.push v).mem.read b =
      if s.isOpaque (stackAddr s.sp) = false ∧ b = (stackAddr s.sp).toNat then v else s.mem.read b := by
  rw [push_eq]
  exact read_ramAfter h _ _ _

theorem wf_pushWord {s : State} (h : s.mem.wf = true) (w : Word) : (s.pushWord w).mem.wf = true :=
  wf_push (wf_push h _) _

theorem isOpaque_push (s : State) (v : Byte) (addr : Word) : (s.push v).isOpaque addr = s.isOpaque addr :=
  isOpaque_congr (by rw [push_eq]) addr

/-- What a pushed word leaves: the high byte at the first address, the low byte at the second. -/
theorem read_pushWord {s : State} (h : s.mem.wf = true) (w : Word) (b : Nat) :
    (s.pushWord w).mem.read b =
      if s.isOpaque (stackAddr (s.sp - 1)) = false ∧ b = (stackAddr (s.sp - 1)).toNat then loByte w
      else if s.isOpaque (stackAddr s.sp) = false ∧ b = (stackAddr s.sp).toNat then hiByte w
      else s.mem.read b := by
  rw [pushWord, read_push (wf_push h _), read_push h, isOpaque_push, push_sp]

theorem isOpaque_pushWord (s : State) (w : Word) (addr : Word) : (s.pushWord w).isOpaque addr = s.isOpaque addr :=
  isOpaque_congr (by rw [pushWord_eq]) addr

theorem wf_saveContext {s : State} (h : s.mem.wf = true) (ret : Word) (status : Byte) :
    (s.saveContext ret status).mem.wf = true :=
  wf_push (wf_pushWord h _) _

/-- What JMI and BRK save: the word as `read_pushWord` says, then the status byte below it. -/
theorem read_saveContext {s : State} (h : s.mem.wf = true) (ret : Word) (status : Byte) (b : Nat) :
    (s.saveContext ret status).mem.read b =
      if s.isOpaque (stackAddr (s.sp - 2)) = false ∧ b = (stackAddr (s.sp - 2)).toNat then status
      else (s.pushWord ret).mem.read b := by
  rw [saveContext, read_push (wf_pushWord h _), isOpaque_pushWord]
  simp only [pushWord_eq]

end Sys2Proof.Machine.State
end

