-- ==== Sys2Proof/Tests/Slice0.lean ====
section
/-! SUPPORT. Tests and witnesses. Expected results are the spec's: the Encoding lines of 41 to 49, the vectors of
95_test_vectors.md (named in each test), the list of 30_encoding.md R68. A witness theorem gives a concrete state and
operands that meet every hypothesis of the obligation it names. -/

namespace Sys2Proof.Tests

open Machine Machine.State Claims

/-! ## Helpers -/

/-- The bytes at consecutive addresses. -/
def place (addr : Word) : List Byte → Memory → Memory
  | [], m => m
  | b :: rest, m => place (addr + 1) rest (m.write addr.toNat b)

/-- The vectors' start state: P = 0x24, S = 0xFD, A = X = Y = 0, the code at PC, the data at `addr`, no access yet. -/
def startAt (pc : Word) (code : List Byte) (addr : Word) (data : List Byte) : State :=
  { State.reset with pc := pc, p := Flags.ofByte 0x24, bus := [], mem := place addr data (place pc code []) }

def start (code : List Byte) : State := startAt 0x0600 code 0 []

def startWith (code : List Byte) (addr : Word) (data : List Byte) : State := startAt 0x0600 code addr data

/-- One step. -/
def after (s : State) : State :=
  match step s with
  | .next t => t
  | .fault _ => s
  | .refused _ => s

/-- A vector's outcome: A, X, Y, S, P; PC; the bytes at the addresses asked for. -/
def row (s : State) (addrs : List Nat) : List Byte × Word × List Byte :=
  ([s.a, s.x, s.y, s.sp, s.p.toByte], s.pc, addrs.map s.mem.read)

/-- Zero-page pointers that wrap, for (zp,X) at 0xFF (vectors M12, M21). -/
def wrapData (code : List Byte) : State :=
  { start code with mem := place 0x4000 [0xCD] (place 0x3000 [0xAB] (place 0xFF [0x00, 0x30] (place 0 [0x40] (start code).mem))) }

/-- Every address is the memory map's own. -/
def deviceEverywhere (s : State) : State := { s with opaqueRegions := [⟨0, 65536⟩] }

/-! ## WellFormed refuses ill-formed terms: one per check -/

theorem test_wellFormed_refuses_mode_not_listed_for_sta : (Instr.sta (.immediate 0x10)).wellFormed true = false := by decide

theorem test_wellFormed_refuses_mode_not_listed_for_load : (Instr.ldx (.zeroPageX 0x10)).wellFormed true = false ∧ (Instr.lda .accumulator).wellFormed true = false := by decide

theorem test_wellFormed_refuses_mode_not_listed_for_ldy : (Instr.ldy (.zeroPageY 0x10)).wellFormed true = false := by decide

theorem test_wellFormed_refuses_mode_not_listed_for_stx_sty : (Instr.stx (.zeroPageX 0x10)).wellFormed true = false ∧ (Instr.sty (.absoluteX 0x10)).wellFormed true = false := by decide

theorem test_wellFormed_refuses_mode_not_listed_for_shift : (Instr.asl .implied).wellFormed true = false ∧ (Instr.ror (.absoluteY 0)).wellFormed true = false := by decide

theorem test_wellFormed_refuses_mode_not_listed_for_inc : (Instr.inc .accumulator).wellFormed true = false := by decide

theorem test_wellFormed_refuses_mode_not_listed_for_cpx : (Instr.cpx (.zeroPageX 0)).wellFormed true = false := by decide

theorem test_wellFormed_refuses_mode_not_listed_for_bit : (Instr.bit (.immediate 0)).wellFormed true = false := by decide

theorem test_wellFormed_refuses_mode_not_listed_for_jmp : (Instr.jmp (.absoluteX 0)).wellFormed true = false := by decide

theorem test_wellFormed_refuses_byte_that_is_no_null : (Instr.null 0xA9).wellFormed false = false ∧ (Instr.null 0xA9).wellFormed true = false := by decide

theorem test_wellFormed_refuses_extras_byte_is_no_null_under_extras : (Instr.null 0x00).wellFormed true = false ∧ (Instr.null 0x00).wellFormed false = true := by decide

theorem test_wellFormed_refuses_extras_absent_by_default : Instr.brk.wellFormed false = false ∧ Instr.cli.wellFormed false = false ∧ Instr.nop.wellFormed false = false := by decide

/-! ## Decoding: for every constructor, words written out from its rule's Encoding line -/

/-- Decode with STD_EXTRAS true, whole. -/
def reads (bytes : List Byte) (i : Instr) : Bool := decide (decode true bytes = .ok (i, []))

theorem test_decode_lda :
    reads [0xA9, 0x9C] (.lda (.immediate 0x9C)) ∧
    reads [0xA5, 0x9C] (.lda (.zeroPage 0x9C)) ∧
    reads [0xB5, 0x9C] (.lda (.zeroPageX 0x9C)) ∧
    reads [0xAD, 0xFE, 0x80] (.lda (.absolute 0x80FE)) ∧
    reads [0xBD, 0xFE, 0x80] (.lda (.absoluteX 0x80FE)) ∧
    reads [0xB9, 0xFE, 0x80] (.lda (.absoluteY 0x80FE)) ∧
    reads [0xA1, 0x9C] (.lda (.indexedIndirectX 0x9C)) ∧
    reads [0xB1, 0x9C] (.lda (.indirectIndexedY 0x9C)) := by
  decide

theorem test_decode_ldx :
    reads [0xA2, 0x9C] (.ldx (.immediate 0x9C)) ∧
    reads [0xA6, 0x9C] (.ldx (.zeroPage 0x9C)) ∧
    reads [0xB6, 0x9C] (.ldx (.zeroPageY 0x9C)) ∧
    reads [0xAE, 0xFE, 0x80] (.ldx (.absolute 0x80FE)) ∧
    reads [0xBE, 0xFE, 0x80] (.ldx (.absoluteY 0x80FE)) := by
  decide

theorem test_decode_ldy :
    reads [0xA0, 0x9C] (.ldy (.immediate 0x9C)) ∧
    reads [0xA4, 0x9C] (.ldy (.zeroPage 0x9C)) ∧
    reads [0xB4, 0x9C] (.ldy (.zeroPageX 0x9C)) ∧
    reads [0xAC, 0xFE, 0x80] (.ldy (.absolute 0x80FE)) ∧
    reads [0xBC, 0xFE, 0x80] (.ldy (.absoluteX 0x80FE)) := by
  decide

theorem test_decode_sta :
    reads [0x85, 0x9C] (.sta (.zeroPage 0x9C)) ∧
    reads [0x95, 0x9C] (.sta (.zeroPageX 0x9C)) ∧
    reads [0x8D, 0xFE, 0x80] (.sta (.absolute 0x80FE)) ∧
    reads [0x9D, 0xFE, 0x80] (.sta (.absoluteX 0x80FE)) ∧
    reads [0x99, 0xFE, 0x80] (.sta (.absoluteY 0x80FE)) ∧
    reads [0x81, 0x9C] (.sta (.indexedIndirectX 0x9C)) ∧
    reads [0x91, 0x9C] (.sta (.indirectIndexedY 0x9C)) := by
  decide

theorem test_decode_stx :
    reads [0x86, 0x9C] (.stx (.zeroPage 0x9C)) ∧
    reads [0x96, 0x9C] (.stx (.zeroPageY 0x9C)) ∧
    reads [0x8E, 0xFE, 0x80] (.stx (.absolute 0x80FE)) := by
  decide

theorem test_decode_sty :
    reads [0x84, 0x9C] (.sty (.zeroPage 0x9C)) ∧
    reads [0x94, 0x9C] (.sty (.zeroPageX 0x9C)) ∧
    reads [0x8C, 0xFE, 0x80] (.sty (.absolute 0x80FE)) := by
  decide

theorem test_decode_asl :
    reads [0x0A] (.asl .accumulator) ∧
    reads [0x06, 0x9C] (.asl (.zeroPage 0x9C)) ∧
    reads [0x16, 0x9C] (.asl (.zeroPageX 0x9C)) ∧
    reads [0x0E, 0xFE, 0x80] (.asl (.absolute 0x80FE)) ∧
    reads [0x1E, 0xFE, 0x80] (.asl (.absoluteX 0x80FE)) := by
  decide

theorem test_decode_lsr :
    reads [0x4A] (.lsr .accumulator) ∧
    reads [0x46, 0x9C] (.lsr (.zeroPage 0x9C)) ∧
    reads [0x56, 0x9C] (.lsr (.zeroPageX 0x9C)) ∧
    reads [0x4E, 0xFE, 0x80] (.lsr (.absolute 0x80FE)) ∧
    reads [0x5E, 0xFE, 0x80] (.lsr (.absoluteX 0x80FE)) := by
  decide

theorem test_decode_rol :
    reads [0x2A] (.rol .accumulator) ∧
    reads [0x26, 0x9C] (.rol (.zeroPage 0x9C)) ∧
    reads [0x36, 0x9C] (.rol (.zeroPageX 0x9C)) ∧
    reads [0x2E, 0xFE, 0x80] (.rol (.absolute 0x80FE)) ∧
    reads [0x3E, 0xFE, 0x80] (.rol (.absoluteX 0x80FE)) := by
  decide

theorem test_decode_ror :
    reads [0x6A] (.ror .accumulator) ∧
    reads [0x66, 0x9C] (.ror (.zeroPage 0x9C)) ∧
    reads [0x76, 0x9C] (.ror (.zeroPageX 0x9C)) ∧
    reads [0x6E, 0xFE, 0x80] (.ror (.absolute 0x80FE)) ∧
    reads [0x7E, 0xFE, 0x80] (.ror (.absoluteX 0x80FE)) := by
  decide

theorem test_decode_inc :
    reads [0xE6, 0x9C] (.inc (.zeroPage 0x9C)) ∧
    reads [0xF6, 0x9C] (.inc (.zeroPageX 0x9C)) ∧
    reads [0xEE, 0xFE, 0x80] (.inc (.absolute 0x80FE)) ∧
    reads [0xFE, 0xFE, 0x80] (.inc (.absoluteX 0x80FE)) := by
  decide

theorem test_decode_dec :
    reads [0xC6, 0x9C] (.dec (.zeroPage 0x9C)) ∧
    reads [0xD6, 0x9C] (.dec (.zeroPageX 0x9C)) ∧
    reads [0xCE, 0xFE, 0x80] (.dec (.absolute 0x80FE)) ∧
    reads [0xDE, 0xFE, 0x80] (.dec (.absoluteX 0x80FE)) := by
  decide

theorem test_decode_cmp :
    reads [0xC9, 0x9C] (.cmp (.immediate 0x9C)) ∧
    reads [0xC5, 0x9C] (.cmp (.zeroPage 0x9C)) ∧
    reads [0xD5, 0x9C] (.cmp (.zeroPageX 0x9C)) ∧
    reads [0xCD, 0xFE, 0x80] (.cmp (.absolute 0x80FE)) ∧
    reads [0xDD, 0xFE, 0x80] (.cmp (.absoluteX 0x80FE)) ∧
    reads [0xD9, 0xFE, 0x80] (.cmp (.absoluteY 0x80FE)) ∧
    reads [0xC1, 0x9C] (.cmp (.indexedIndirectX 0x9C)) ∧
    reads [0xD1, 0x9C] (.cmp (.indirectIndexedY 0x9C)) := by
  decide

theorem test_decode_cpx :
    reads [0xE0, 0x9C] (.cpx (.immediate 0x9C)) ∧
    reads [0xE4, 0x9C] (.cpx (.zeroPage 0x9C)) ∧
    reads [0xEC, 0xFE, 0x80] (.cpx (.absolute 0x80FE)) := by
  decide

theorem test_decode_cpy :
    reads [0xC0, 0x9C] (.cpy (.immediate 0x9C)) ∧
    reads [0xC4, 0x9C] (.cpy (.zeroPage 0x9C)) ∧
    reads [0xCC, 0xFE, 0x80] (.cpy (.absolute 0x80FE)) := by
  decide

theorem test_decode_and :
    reads [0x29, 0x9C] (.and (.immediate 0x9C)) ∧
    reads [0x25, 0x9C] (.and (.zeroPage 0x9C)) ∧
    reads [0x35, 0x9C] (.and (.zeroPageX 0x9C)) ∧
    reads [0x2D, 0xFE, 0x80] (.and (.absolute 0x80FE)) ∧
    reads [0x3D, 0xFE, 0x80] (.and (.absoluteX 0x80FE)) ∧
    reads [0x39, 0xFE, 0x80] (.and (.absoluteY 0x80FE)) ∧
    reads [0x21, 0x9C] (.and (.indexedIndirectX 0x9C)) ∧
    reads [0x31, 0x9C] (.and (.indirectIndexedY 0x9C)) := by
  decide

theorem test_decode_ora :
    reads [0x09, 0x9C] (.ora (.immediate 0x9C)) ∧
    reads [0x05, 0x9C] (.ora (.zeroPage 0x9C)) ∧
    reads [0x15, 0x9C] (.ora (.zeroPageX 0x9C)) ∧
    reads [0x0D, 0xFE, 0x80] (.ora (.absolute 0x80FE)) ∧
    reads [0x1D, 0xFE, 0x80] (.ora (.absoluteX 0x80FE)) ∧
    reads [0x19, 0xFE, 0x80] (.ora (.absoluteY 0x80FE)) ∧
    reads [0x01, 0x9C] (.ora (.indexedIndirectX 0x9C)) ∧
    reads [0x11, 0x9C] (.ora (.indirectIndexedY 0x9C)) := by
  decide

theorem test_decode_eor :
    reads [0x49, 0x9C] (.eor (.immediate 0x9C)) ∧
    reads [0x45, 0x9C] (.eor (.zeroPage 0x9C)) ∧
    reads [0x55, 0x9C] (.eor (.zeroPageX 0x9C)) ∧
    reads [0x4D, 0xFE, 0x80] (.eor (.absolute 0x80FE)) ∧
    reads [0x5D, 0xFE, 0x80] (.eor (.absoluteX 0x80FE)) ∧
    reads [0x59, 0xFE, 0x80] (.eor (.absoluteY 0x80FE)) ∧
    reads [0x41, 0x9C] (.eor (.indexedIndirectX 0x9C)) ∧
    reads [0x51, 0x9C] (.eor (.indirectIndexedY 0x9C)) := by
  decide

theorem test_decode_bit :
    reads [0x24, 0x9C] (.bit (.zeroPage 0x9C)) ∧
    reads [0x2C, 0xFE, 0x80] (.bit (.absolute 0x80FE)) := by
  decide

theorem test_decode_adc :
    reads [0x69, 0x9C] (.adc (.immediate 0x9C)) ∧
    reads [0x65, 0x9C] (.adc (.zeroPage 0x9C)) ∧
    reads [0x75, 0x9C] (.adc (.zeroPageX 0x9C)) ∧
    reads [0x6D, 0xFE, 0x80] (.adc (.absolute 0x80FE)) ∧
    reads [0x7D, 0xFE, 0x80] (.adc (.absoluteX 0x80FE)) ∧
    reads [0x79, 0xFE, 0x80] (.adc (.absoluteY 0x80FE)) ∧
    reads [0x61, 0x9C] (.adc (.indexedIndirectX 0x9C)) ∧
    reads [0x71, 0x9C] (.adc (.indirectIndexedY 0x9C)) := by
  decide

theorem test_decode_sbc :
    reads [0xE9, 0x9C] (.sbc (.immediate 0x9C)) ∧
    reads [0xE5, 0x9C] (.sbc (.zeroPage 0x9C)) ∧
    reads [0xF5, 0x9C] (.sbc (.zeroPageX 0x9C)) ∧
    reads [0xED, 0xFE, 0x80] (.sbc (.absolute 0x80FE)) ∧
    reads [0xFD, 0xFE, 0x80] (.sbc (.absoluteX 0x80FE)) ∧
    reads [0xF9, 0xFE, 0x80] (.sbc (.absoluteY 0x80FE)) ∧
    reads [0xE1, 0x9C] (.sbc (.indexedIndirectX 0x9C)) ∧
    reads [0xF1, 0x9C] (.sbc (.indirectIndexedY 0x9C)) := by
  decide

theorem test_decode_jmp :
    reads [0x4C, 0xFE, 0x80] (.jmp (.absolute 0x80FE)) ∧
    reads [0x6C, 0xFE, 0x80] (.jmp (.indirect 0x80FE)) := by
  decide

theorem test_decode_inx : reads [0xE8] .inx := by decide

theorem test_decode_iny : reads [0xC8] .iny := by decide

theorem test_decode_dex : reads [0xCA] .dex := by decide

theorem test_decode_dey : reads [0x88] .dey := by decide

theorem test_decode_tax : reads [0xAA] .tax := by decide

theorem test_decode_txa : reads [0x8A] .txa := by decide

theorem test_decode_tay : reads [0xA8] .tay := by decide

theorem test_decode_tya : reads [0x98] .tya := by decide

theorem test_decode_tsx : reads [0xBA] .tsx := by decide

theorem test_decode_txs : reads [0x9A] .txs := by decide

theorem test_decode_sec : reads [0x38] .sec := by decide

theorem test_decode_clc : reads [0x18] .clc := by decide

theorem test_decode_clv : reads [0xB8] .clv := by decide

theorem test_decode_sei : reads [0x78] .sei := by decide

theorem test_decode_sed : reads [0xF8] .sed := by decide

theorem test_decode_cld : reads [0xD8] .cld := by decide

theorem test_decode_cli : reads [0x58] .cli := by decide

theorem test_decode_pha : reads [0x48] .pha := by decide

theorem test_decode_pla : reads [0x68] .pla := by decide

theorem test_decode_php : reads [0x08] .php := by decide

theorem test_decode_plp : reads [0x28] .plp := by decide

theorem test_decode_rts : reads [0x60] .rts := by decide

theorem test_decode_rti : reads [0x40] .rti := by decide

theorem test_decode_brk : reads [0x00] .brk := by decide

theorem test_decode_nop : reads [0xEA] .nop := by decide

theorem test_decode_bpl : reads [0x10, 0x9C] (.bpl 0x9C) := by decide

theorem test_decode_bmi : reads [0x30, 0x9C] (.bmi 0x9C) := by decide

theorem test_decode_bvc : reads [0x50, 0x9C] (.bvc 0x9C) := by decide

theorem test_decode_bvs : reads [0x70, 0x9C] (.bvs 0x9C) := by decide

theorem test_decode_bcc : reads [0x90, 0x9C] (.bcc 0x9C) := by decide

theorem test_decode_bcs : reads [0xB0, 0x9C] (.bcs 0x9C) := by decide

theorem test_decode_bne : reads [0xD0, 0x9C] (.bne 0x9C) := by decide

theorem test_decode_beq : reads [0xF0, 0x9C] (.beq 0x9C) := by decide

theorem test_decode_jsr : reads [0x20, 0xFE, 0x80] (.jsr 0x80FE) := by decide

/-- 30_encoding.md R68: Null takes no operand byte. -/
theorem test_decode_null : decode true [0x02] = .ok (.null 0x02, []) ∧ decode false [0xFF, 0x11] = .ok (.null 0xFF, [0x11]) := by decide

/-- 30_encoding.md R68, 00_scope.md R11. -/
theorem test_decode_extras_are_null_by_default : decode false [0x00] = .ok (.null 0x00, []) ∧ decode false [0x58] = .ok (.null 0x58, []) ∧ decode false [0xEA] = .ok (.null 0xEA, []) := by decide

/-- 30_encoding.md R69. -/
theorem test_encode_jmi_has_no_byte : encode (.jmi 0x1234) = none := by decide

theorem test_decode_rejects_by_name : decode false [] = .error .noOpcode ∧ decode false [0xA9] = .error (.truncated 0xA9) ∧ decode false [0x4C, 0x00] = .error (.truncated 0x4C) := by decide

/-- LDA abs,X is BD F0 12: the first byte is the least significant. -/
theorem test_table_word_and_fetch : decodeTableWord 24 0x12F0BD = some (.lda (.absoluteX 0x12F0)) ∧ decodeTableWord 8 0x9A = some .txs := by decide

/-! ## The addressing modes, vectors M1 to M21: (EA, VAL), the reads, the penalty -/

/-- What resolution gives: (EA, VAL), the addresses read, oldest first, the cycles added. -/
def resolved (s : State) (reads sensitive : Bool) (o : Operand) : Latch × List Access × Nat :=
  ((s.resolve reads sensitive o).1, (s.resolve reads sensitive o).2.bus.reverse, (s.resolve reads sensitive o).2.cyc)

theorem test_mode_zeroPage_M1 : resolved (startWith [] 0x0080 [0x11]) true true (.zeroPage 0x80) = (⟨0x0080, 0x11⟩, [.read 0x0080], 0) := by decide

theorem test_mode_zeroPageX_M2 : resolved ({ startWith [] 0x0010 [0x22] with x := 0x20 }) true true (.zeroPageX 0xF0) = (⟨0x0010, 0x22⟩, [.read 0x0010], 0) := by decide

theorem test_mode_zeroPageY_M3 : resolved ({ startWith [] 0x0000 [0x33] with y := 0x01 }) true true (.zeroPageY 0xFF) = (⟨0x0000, 0x33⟩, [.read 0x0000], 0) := by decide

theorem test_mode_absolute_M4 : resolved (startWith [] 0x1234 [0x44]) true true (.absolute 0x1234) = (⟨0x1234, 0x44⟩, [.read 0x1234], 0) := by decide

theorem test_mode_absoluteStore_M5 : resolved (startWith [] 0x1234 [0x44]) false false (.absolute 0x1234) = (⟨0x1234, 0x00⟩, [], 0) := by decide

theorem test_mode_absoluteX_M6 : resolved ({ startWith [] 0x1210 [0x66] with x := 0x10 }) true true (.absoluteX 0x1200) = (⟨0x1210, 0x66⟩, [.read 0x1210], 0) := by decide

theorem test_mode_absoluteXCross_M7 : resolved ({ startWith [] 0x1310 [0x77] with x := 0x20 }) true true (.absoluteX 0x12F0) = (⟨0x1310, 0x77⟩, [.read 0x1310], 3) := by decide

theorem test_mode_absoluteYWrap_M9 : resolved ({ startWith [] 0x0000 [0x88] with y := 0x01 }) true true (.absoluteY 0xFFFF) = (⟨0x0000, 0x88⟩, [.read 0x0000], 3) := by decide

theorem test_mode_absoluteXShift_M10 : resolved ({ startWith [] 0x1310 [0x01] with x := 0x20 }) true false (.absoluteX 0x12F0) = (⟨0x1310, 0x01⟩, [.read 0x1310], 0) := by decide

theorem test_mode_indexedIndirectX_M11 : resolved ({ startWith [] 0x0024 [0x74, 0x20] with mem := place 0x2074 [0x99] (startWith [] 0x0024 [0x74, 0x20]).mem, x := 0x04 }) true true (.indexedIndirectX 0x20) = (⟨0x2074, 0x99⟩, [.read 0x0024, .read 0x0025, .read 0x2074], 0) := by decide

theorem test_mode_indexedIndirectXNoWrap_M12 : resolved (wrapData []) true true (.indexedIndirectX 0xFF) = (⟨0x3000, 0xAB⟩, [.read 0x00FF, .read 0x0100, .read 0x3000], 0) := by decide

theorem test_mode_indexedIndirectXWrap_M21 : resolved ({ wrapData [] with cfg := { Params.nyra with zpPointerWrap := true } }) true true (.indexedIndirectX 0xFF) = (⟨0x4000, 0xCD⟩, [.read 0x00FF, .read 0x0000, .read 0x4000], 0) := by decide

theorem test_mode_indirectIndexedY_M13 : resolved ({ startWith [] 0x0086 [0x28, 0x40] with mem := place 0x4038 [0x5A] (startWith [] 0x0086 [0x28, 0x40]).mem, y := 0x10 }) true true (.indirectIndexedY 0x86) = (⟨0x4038, 0x5A⟩, [.read 0x0086, .read 0x0087, .read 0x4038], 0) := by decide

theorem test_mode_indirectIndexedYCross_M14 : resolved ({ startWith [] 0x0086 [0xF0, 0x40] with mem := place 0x4110 [0x5B] (startWith [] 0x0086 [0xF0, 0x40]).mem, y := 0x20 }) true true (.indirectIndexedY 0x86) = (⟨0x4110, 0x5B⟩, [.read 0x0086, .read 0x0087, .read 0x4110], 3) := by decide

theorem test_mode_indirect_M16 : resolved (startWith [] 0x3000 [0x34, 0x12]) true false (.indirect 0x3000) = (⟨0x1234, 0x00⟩, [.read 0x3000, .read 0x3001], 0) := by decide

theorem test_mode_indirectPageWrap_M17 : resolved ({ startWith [] 0x10FF [0x34, 0x56] with mem := place 0x1000 [0x12] (startWith [] 0x10FF [0x34, 0x56]).mem }) true false (.indirect 0x10FF) = (⟨0x1234, 0x00⟩, [.read 0x10FF, .read 0x1000], 0) := by decide

theorem test_mode_immediate_M18 : resolved (start []) true true (.immediate 0x42) = (⟨0x0042, 0x42⟩, [], 0) := by decide

theorem test_mode_accumulator_M19 : resolved ({ start [] with a := 0x81 }) true false (.accumulator) = (⟨0x0081, 0x81⟩, [], 0) := by decide

theorem test_mode_implied_M20 : resolved (start []) true false (.implied) = (⟨0x0000, 0x00⟩, [], 0) := by decide

/-- The table of relative targets. -/
theorem test_mode_relative_wraps : ((startAt 0xFFF0 [] 0 []).resolve true false (.relative 0x20)).1.ea = 0x0012 ∧ ((startAt 0x0005 [] 0 []).resolve true false (.relative 0xF0)).1.ea = 0xFFF7 ∧ ((startAt 0x0600 [] 0 []).resolve true false (.relative 0x80)).1.ea = 0x0582 := by decide

/-! ## Instructions, one step each: the family vectors of 95_test_vectors.md -/

theorem test_lda_LS2 : row (after (start [0xA9, 0x80])) [] =
    ([0x80, 0x00, 0x00, 0xFD, 0xA4], 0x0602, []) := by decide

theorem test_ldx_LS3 : row (after (startWith [0xA6, 0x10] 0x0010 [0x7F])) [] =
    ([0x00, 0x7F, 0x00, 0xFD, 0x24], 0x0602, []) := by decide

theorem test_ldy_LS4 : row (after ({ startWith [0xB4, 0x10] 0x0005 [0xFE] with x := 0xF5 })) [] =
    ([0x00, 0xF5, 0xFE, 0xFD, 0xA4], 0x0602, []) := by decide

theorem test_sta_LS5 : row (after ({ start [0x99, 0x00, 0x02] with a := 0xA5, y := 0x03 })) [0x0203] =
    ([0xA5, 0x00, 0x03, 0xFD, 0x24], 0x0603, [0xA5]) := by decide

theorem test_stx_LS6 : row (after ({ start [0x8E, 0x00, 0x03] with x := 0x01, p := Flags.ofByte 0xE7 })) [0x0300] =
    ([0x00, 0x01, 0x00, 0xFD, 0xE7], 0x0603, [0x01]) := by decide

theorem test_sty_LS7 : row (after ({ start [0x94, 0xFF] with x := 0x02, y := 0x3C })) [0x0001] =
    ([0x00, 0x02, 0x3C, 0xFD, 0x24], 0x0602, [0x3C]) := by decide

theorem test_asl_SH1 : row (after ({ start [0x0A] with a := 0x80 })) [] =
    ([0x00, 0x00, 0x00, 0xFD, 0x27], 0x0601, []) := by decide

theorem test_asl_SH10 : row (after ({ startWith [0x1E, 0x00, 0x02] 0x0201 [0xC0] with x := 0x01 })) [0x0201] =
    ([0x00, 0x01, 0x00, 0xFD, 0xA5], 0x0603, [0x80]) := by decide

theorem test_lsr_SH3 : row (after ({ start [0x4A] with a := 0x01 })) [] =
    ([0x00, 0x00, 0x00, 0xFD, 0x27], 0x0601, []) := by decide

theorem test_lsr_SH4 : row (after ({ start [0x4A] with a := 0xFF, p := Flags.ofByte 0xA4 })) [] =
    ([0x7F, 0x00, 0x00, 0xFD, 0x25], 0x0601, []) := by decide

theorem test_rol_SH5 : row (after ({ start [0x2A] with a := 0x80 })) [] =
    ([0x00, 0x00, 0x00, 0xFD, 0x27], 0x0601, []) := by decide

theorem test_rol_SH6 : row (after ({ start [0x2A] with p := Flags.ofByte 0x25 })) [] =
    ([0x01, 0x00, 0x00, 0xFD, 0x24], 0x0601, []) := by decide

theorem test_ror_SH7 : row (after ({ start [0x6A] with a := 0x01 })) [] =
    ([0x00, 0x00, 0x00, 0xFD, 0x27], 0x0601, []) := by decide

theorem test_ror_SH9 : row (after ({ startWith [0x66, 0x10] 0x0010 [0x02] with p := Flags.ofByte 0x25 })) [0x0010] =
    ([0x00, 0x00, 0x00, 0xFD, 0xA4], 0x0602, [0x81]) := by decide

theorem test_inc_ID1 : row (after ({ startWith [0xE6, 0x10] 0x0010 [0xFF] with p := Flags.ofByte 0x25 })) [0x0010] =
    ([0x00, 0x00, 0x00, 0xFD, 0x27], 0x0602, [0x00]) := by decide

theorem test_inc_ID2 : row (after (startWith [0xE6, 0x10] 0x0010 [0x7F])) [0x0010] =
    ([0x00, 0x00, 0x00, 0xFD, 0xA4], 0x0602, [0x80]) := by decide

theorem test_dec_ID3 : row (after (startWith [0xCE, 0x00, 0x02] 0x0200 [0x01])) [0x0200] =
    ([0x00, 0x00, 0x00, 0xFD, 0x26], 0x0603, [0x00]) := by decide

theorem test_dec_ID4 : row (after ({ start [0xD6, 0x10] with x := 0xF0 })) [0x0000] =
    ([0x00, 0xF0, 0x00, 0xFD, 0xA4], 0x0602, [0xFF]) := by decide

theorem test_inx_ID5 : row (after ({ start [0xE8] with x := 0xFF })) [] =
    ([0x00, 0x00, 0x00, 0xFD, 0x26], 0x0601, []) := by decide

theorem test_iny_ID6 : row (after ({ start [0xC8] with y := 0x7F })) [] =
    ([0x00, 0x00, 0x80, 0xFD, 0xA4], 0x0601, []) := by decide

theorem test_dex_ID7 : row (after (start [0xCA])) [] =
    ([0x00, 0xFF, 0x00, 0xFD, 0xA4], 0x0601, []) := by decide

theorem test_dey_ID8 : row (after ({ start [0x88] with y := 0x01 })) [] =
    ([0x00, 0x00, 0x00, 0xFD, 0x26], 0x0601, []) := by decide

theorem test_tax_TR1 : row (after ({ start [0xAA] with a := 0x80 })) [] =
    ([0x80, 0x80, 0x00, 0xFD, 0xA4], 0x0601, []) := by decide

theorem test_tay_TR2 : row (after ({ start [0xA8] with y := 0x12 })) [] =
    ([0x00, 0x00, 0x00, 0xFD, 0x26], 0x0601, []) := by decide

theorem test_txa_TR3 : row (after ({ start [0x8A] with x := 0x01, a := 0xFF })) [] =
    ([0x01, 0x01, 0x00, 0xFD, 0x24], 0x0601, []) := by decide

theorem test_tya_TR4 : row (after ({ start [0x98] with y := 0xC0 })) [] =
    ([0xC0, 0x00, 0xC0, 0xFD, 0xA4], 0x0601, []) := by decide

theorem test_tsx_TR5 : row (after ({ start [0xBA] with sp := 0x00 })) [] =
    ([0x00, 0x00, 0x00, 0x00, 0x26], 0x0601, []) := by decide

theorem test_txs_TR6 : row (after ({ start [0x9A] with p := Flags.ofByte 0xA4 })) [] =
    ([0x00, 0x00, 0x00, 0x00, 0xA4], 0x0601, []) := by decide

theorem test_txs_TR7 : row (after ({ start [0x9A] with x := 0x80, p := Flags.ofByte 0x26 })) [] =
    ([0x00, 0x80, 0x00, 0x80, 0x26], 0x0601, []) := by decide

theorem test_sec_FL1 : row (after (start [0x38])) [] =
    ([0x00, 0x00, 0x00, 0xFD, 0x25], 0x0601, []) := by decide

theorem test_clc_FL2 : row (after ({ start [0x18] with p := Flags.ofByte 0xFF })) [] =
    ([0x00, 0x00, 0x00, 0xFD, 0xFE], 0x0601, []) := by decide

theorem test_clv_FL3 : row (after ({ start [0xB8] with p := Flags.ofByte 0xFF })) [] =
    ([0x00, 0x00, 0x00, 0xFD, 0xBF], 0x0601, []) := by decide

theorem test_sei_FL4 : row (after ({ start [0x78] with p := Flags.ofByte 0x20 })) [] =
    ([0x00, 0x00, 0x00, 0xFD, 0x24], 0x0601, []) := by decide

theorem test_sed_FL5 : row (after (start [0xF8])) [] =
    ([0x00, 0x00, 0x00, 0xFD, 0x2C], 0x0601, []) := by decide

theorem test_cld_FL6 : row (after ({ start [0xD8] with p := Flags.ofByte 0xFF })) [] =
    ([0x00, 0x00, 0x00, 0xFD, 0xF7], 0x0601, []) := by decide

/-- 45_flag_ops.md R124's example. -/
theorem test_cli_R124 : row (after ({ start [0x58] with cfg := { Params.nyra with stdExtras := true } })) [] =
    ([0x00, 0x00, 0x00, 0xFD, 0x20], 0x0601, []) := by decide

theorem test_pha_ST1 : row (after ({ start [0x48] with a := 0x5A })) [0x01FD] =
    ([0x5A, 0x00, 0x00, 0xFC, 0x24], 0x0601, [0x5A]) := by decide

theorem test_pha_ST2 : row (after ({ start [0x48] with a := 0x5A, sp := 0x00 })) [0x0100] =
    ([0x5A, 0x00, 0x00, 0xFF, 0x24], 0x0601, [0x5A]) := by decide

theorem test_pla_ST3 : row (after ({ startWith [0x68] 0x01FD [0x80] with sp := 0xFC })) [] =
    ([0x80, 0x00, 0x00, 0xFD, 0xA4], 0x0601, []) := by decide

theorem test_pla_ST4 : row (after ({ start [0x68] with sp := 0xFF, a := 0x09 })) [] =
    ([0x00, 0x00, 0x00, 0x00, 0x26], 0x0601, []) := by decide

theorem test_php_ST5 : row (after (start [0x08])) [0x01FD] =
    ([0x00, 0x00, 0x00, 0xFC, 0x24], 0x0601, [0x34]) := by decide

theorem test_php_ST6 : row (after ({ start [0x08] with p := Flags.ofByte 0xEF })) [0x01FD] =
    ([0x00, 0x00, 0x00, 0xFC, 0xEF], 0x0601, [0xFF]) := by decide

theorem test_plp_ST7 : row (after ({ startWith [0x28] 0x01FD [0xFF] with sp := 0xFC })) [] =
    ([0x00, 0x00, 0x00, 0xFD, 0xEF], 0x0601, []) := by decide

theorem test_plp_ST8 : row (after ({ start [0x28] with sp := 0xFC })) [] =
    ([0x00, 0x00, 0x00, 0xFD, 0x20], 0x0601, []) := by decide

theorem test_cmp_CL1 : row (after ({ start [0xC9, 0x40] with a := 0x40 })) [] =
    ([0x40, 0x00, 0x00, 0xFD, 0x27], 0x0602, []) := by decide

theorem test_cmp_CL3 : row (after ({ start [0xC9, 0x00] with a := 0xFF })) [] =
    ([0xFF, 0x00, 0x00, 0xFD, 0xA5], 0x0602, []) := by decide

theorem test_cpx_CL5 : row (after ({ start [0xE0, 0x01] with p := Flags.ofByte 0x64 })) [] =
    ([0x00, 0x00, 0x00, 0xFD, 0xE4], 0x0602, []) := by decide

theorem test_cpy_CL6 : row (after ({ startWith [0xC4, 0x10] 0x0010 [0x7F] with y := 0x80 })) [] =
    ([0x00, 0x00, 0x80, 0xFD, 0x25], 0x0602, []) := by decide

theorem test_and_CL7 : row (after ({ start [0x29, 0x0F] with a := 0xF0 })) [] =
    ([0x00, 0x00, 0x00, 0xFD, 0x26], 0x0602, []) := by decide

theorem test_ora_CL8 : row (after ({ start [0x09, 0x80] with a := 0x01 })) [] =
    ([0x81, 0x00, 0x00, 0xFD, 0xA4], 0x0602, []) := by decide

theorem test_eor_CL9 : row (after ({ start [0x49, 0xFF] with a := 0xFF })) [] =
    ([0x00, 0x00, 0x00, 0xFD, 0x26], 0x0602, []) := by decide

theorem test_bit_CL10 : row (after (startWith [0x24, 0x20] 0x0020 [0xC0])) [] =
    ([0x00, 0x00, 0x00, 0xFD, 0xE6], 0x0602, []) := by decide

theorem test_bit_CL11 : row (after ({ startWith [0x2C, 0x00, 0x02] 0x0200 [0x01] with a := 0x01, p := Flags.ofByte 0xE5 })) [] =
    ([0x01, 0x00, 0x00, 0xFD, 0x25], 0x0603, []) := by decide

theorem test_adc_AS9 : row (after ({ start [0x69, 0x7F] with a := 0x7F, p := Flags.ofByte 0x25 })) [] =
    ([0xFF, 0x00, 0x00, 0xFD, 0xE4], 0x0602, []) := by decide

theorem test_adc_AS7 : row (after ({ start [0x69, 0x90] with a := 0xD0 })) [] =
    ([0x60, 0x00, 0x00, 0xFD, 0x65], 0x0602, []) := by decide

theorem test_sbc_AS12 : row (after ({ start [0xE9, 0x05] with a := 0x05 })) [] =
    ([0xFF, 0x00, 0x00, 0xFD, 0xA4], 0x0602, []) := by decide

theorem test_sbc_AS11 : row (after ({ start [0xE9, 0x01] with a := 0x80, p := Flags.ofByte 0x25 })) [] =
    ([0x7F, 0x00, 0x00, 0xFD, 0x65], 0x0602, []) := by decide

/-- The rest of V-AS: A in, VAL, C in; A out, then C, Z, V, N. SBC adds the complement (48_add_sub.md R137). -/
def addRow (a v : Byte) (c : Bool) : Byte × List Bool :=
  let r := addWithCarry { Flags.ofByte 0x24 with c := c } a v
  (r.1, [r.2.c, r.2.z, r.2.v, r.2.n])

theorem test_add_AS1_to_AS8 : addRow 0xFF 0x01 false = (0x00, [true, true, false, false]) ∧
    addRow 0x7F 0x01 false = (0x80, [false, false, true, true]) ∧
    addRow 0x80 0x80 false = (0x00, [true, true, true, false]) ∧
    addRow 0xFF 0xFF true = (0xFF, [true, false, false, true]) ∧
    addRow 0x50 0x50 false = (0xA0, [false, false, true, true]) ∧
    addRow 0x50 0xD0 false = (0x20, [true, false, false, false]) ∧
    addRow 0x00 0x00 true = (0x01, [false, false, false, false]) := by decide

theorem test_subtract_AS10_to_AS18 : addRow 0x00 (~~~0x01) true = (0xFF, [false, false, false, true]) ∧
    addRow 0x05 (~~~0x05) true = (0x00, [true, true, false, false]) ∧
    addRow 0x50 (~~~0xF0) true = (0x60, [false, false, false, false]) ∧
    addRow 0x50 (~~~0xB0) true = (0xA0, [false, false, true, true]) ∧
    addRow 0xD0 (~~~0x70) true = (0x60, [true, false, true, false]) ∧
    addRow 0x00 (~~~0x00) false = (0xFF, [false, false, false, true]) ∧
    addRow 0x7F (~~~0xFF) true = (0x80, [false, false, true, true]) := by decide

theorem test_jmp_CT1 : row (after (start [0x4C, 0x00, 0xC0])) [] =
    ([0x00, 0x00, 0x00, 0xFD, 0x24], 0xC000, []) := by decide

theorem test_jsr_CT3 : row (after ({ start [0x20, 0x00, 0x07] with sp := 0x00 })) [0x0100, 0x01FF] =
    ([0x00, 0x00, 0x00, 0xFE, 0x24], 0x0700, [0x06, 0x02]) := by decide

theorem test_rts_CT4 : row (after ({ startWith [0x60] 0x01FC [0x02, 0x06] with sp := 0xFB })) [] =
    ([0x00, 0x00, 0x00, 0xFD, 0x24], 0x0603, []) := by decide

theorem test_rts_CT5 : row (after ({ startWith [0x60] 0x01FC [0xFF, 0xFF] with sp := 0xFB })) [] =
    ([0x00, 0x00, 0x00, 0xFD, 0x24], 0x0000, []) := by decide

theorem test_rti_CT6 : row (after ({ startWith [0x40] 0x01FB [0x10, 0x23, 0x81] with sp := 0xFA })) [] =
    ([0x00, 0x00, 0x00, 0xFD, 0x30], 0x8123, []) := by decide

theorem test_rti_CT7 : row (after ({ startWith [0x40] 0x01FB [0xC3, 0x00, 0x02] with sp := 0xFA })) [] =
    ([0x00, 0x00, 0x00, 0xFD, 0xE3], 0x0200, []) := by decide

theorem test_jmi_JMI2 : row (after { startAt 0x0600 [] 0 [] with p := Flags.ofByte 0xB1, sp := 0x01, commands := [.interrupt 0x0000] }) [0x0101, 0x0100, 0x01FF] =
    ([0x00, 0x00, 0x00, 0xFE, 0xB1], 0x0000, [0x06, 0x00, 0xB1]) := by decide

theorem test_jmi_JMI3 : (after { startAt 0xFFFF [] 0 [] with p := Flags.ofByte 0x30, commands := [.interrupt 0x1234] }).cyc = 7 ∧
    row (after { startAt 0xFFFF [] 0 [] with p := Flags.ofByte 0x30, commands := [.interrupt 0x1234] }) [0x01FD, 0x01FC, 0x01FB] =
    ([0x00, 0x00, 0x00, 0xFA, 0x30], 0x1234, [0xFF, 0xFF, 0x30]) := by decide

theorem test_bpl_BR : (after { start [0x10, 0x10] with p := Flags.ofByte 0x24 }).pc = 0x0612 ∧ (after { start [0x10, 0x10] with p := Flags.ofByte 0xA4 }).pc = 0x0602 := by decide

theorem test_bmi_BR : (after { start [0x30, 0x10] with p := Flags.ofByte 0x24 }).pc = 0x0602 ∧ (after { start [0x30, 0x10] with p := Flags.ofByte 0xA4 }).pc = 0x0612 := by decide

theorem test_bvc_BR : (after { start [0x50, 0x10] with p := Flags.ofByte 0x24 }).pc = 0x0612 ∧ (after { start [0x50, 0x10] with p := Flags.ofByte 0x64 }).pc = 0x0602 := by decide

theorem test_bvs_BR : (after { start [0x70, 0x10] with p := Flags.ofByte 0x24 }).pc = 0x0602 ∧ (after { start [0x70, 0x10] with p := Flags.ofByte 0x64 }).pc = 0x0612 := by decide

theorem test_bcc_BR : (after { start [0x90, 0x10] with p := Flags.ofByte 0x24 }).pc = 0x0612 ∧ (after { start [0x90, 0x10] with p := Flags.ofByte 0x25 }).pc = 0x0602 := by decide

theorem test_bcs_BR : (after { start [0xB0, 0x10] with p := Flags.ofByte 0x24 }).pc = 0x0602 ∧ (after { start [0xB0, 0x10] with p := Flags.ofByte 0x25 }).pc = 0x0612 := by decide

theorem test_bne_BR : (after { start [0xD0, 0x10] with p := Flags.ofByte 0x24 }).pc = 0x0612 ∧ (after { start [0xD0, 0x10] with p := Flags.ofByte 0x26 }).pc = 0x0602 := by decide

theorem test_beq_BR : (after { start [0xF0, 0x10] with p := Flags.ofByte 0x24 }).pc = 0x0602 ∧ (after { start [0xF0, 0x10] with p := Flags.ofByte 0x26 }).pc = 0x0612 := by decide

theorem test_null_N1 : (after (startAt 0x0300 [0x02, 0x11] 0 [])).fault = some ⟨0x0300, 0x02⟩ ∧ (after (startAt 0x0300 [0x02, 0x11] 0 [])).cyc = 0 ∧
    (after (startAt 0x0300 [0x02, 0x11] 0 [])).bus = [.read 0x0300] := by decide

theorem test_null_N4 : (after (startAt 0x0300 [0xEA, 0x11] 0 [])).fault = some ⟨0x0300, 0xEA⟩ := by decide

theorem test_nop_N6 : (after { startAt 0x0300 [0xEA, 0x11] 0 [] with cfg := { Params.nyra with stdExtras := true } }).pc = 0x0301 ∧ (after { startAt 0x0300 [0xEA, 0x11] 0 [] with cfg := { Params.nyra with stdExtras := true } }).cyc = 2 ∧ (after { startAt 0x0300 [0xEA, 0x11] 0 [] with cfg := { Params.nyra with stdExtras := true } }).fault = none := by decide

/-- 49_control.md R153's example. -/
theorem test_brk_R153 : row (after { startAt 0x0200 [0x00] 0xFFFE [0x00, 0x90] with p := Flags.ofByte 0x20, cfg := { Params.nyra with stdExtras := true } }) [0x01FD, 0x01FC, 0x01FB] =
    ([0x00, 0x00, 0x00, 0xFA, 0x24], 0x9000, [0x02, 0x02, 0x30]) := by decide

/-! ## Cycles, vectors CY3, CY4 and CY7 -/

theorem test_cycles_CY3 : (after { start [0x9D, 0xF0, 0x12] with x := 0x20 }).cyc = 5 := by decide

theorem test_cycles_CY4 : (after { startWith [0xB1, 0x86] 0x86 [0xF0, 0x40] with y := 0x20 }).cyc = 8 := by decide

theorem test_cycles_CY7 : (after (startAt 0x06F0 [0xD0, 0x7F] 0 [])).cyc = 2 ∧ (after (startAt 0x06F0 [0xD0, 0x7F] 0 [])).pc = 0x0771 := by decide

/-! ## Reset and the host's reading -/

/-- 70_reset_and_hazards.md R172, program P6. -/
theorem test_reset_command : (after { startAt 0 [] 0xFFFC [0x00, 0x06] with commands := [.reset] }).pc = 0x0600 ∧
    (after { startAt 0 [] 0xFFFC [0x00, 0x06] with commands := [.reset] }).sp = 0xFD ∧
    (after { startAt 0 [] 0xFFFC [0x00, 0x06] with commands := [.reset] }).bus.reverse = [.read 0xFFFC, .read 0xFFFD] := by decide

/-- LDA #$7F is A9 7F; TXS is 9A. -/
theorem test_first_instruction_after_reset : (after (State.reset.withFetchWord 16 0x7FA9)).a = 0x7F ∧ (after (State.reset.withFetchWord 8 0x9A)).sp = 0x00 := by decide

/-- R60, R61. -/
theorem test_plain_stores_to_stack_wrap : (((start []).push 0x11).push 0x22).pop.1 = 0x22 := by decide

/-! ## Witnesses: the hypotheses of each obligation, met together -/

/-- A state that meets the invariant and is not bare: RAM, a device, a pending interrupt. -/
def busy : State :=
  { startWith [0xE6, 0x10] 0x10 [0xFF] with opaqueRegions := [⟨0xD000, 16⟩], commands := [.step, .interrupt 0x9000] }

/-- A faulted state, the Null opcode still at PC. -/
def faulted : State := after (startAt 0x0300 [0x02] 0 [])

theorem plainStack_start (code : List Byte) : plainStack (start code) := fun _ => rfl

theorem witness_DecodeOfEncodeIsIdentity :
    (Instr.lda (.absoluteX 0x80FE)).wellFormed false = true ∧
    encode (.lda (.absoluteX 0x80FE)) = some [0xBD, 0xFE, 0x80] := by decide

theorem witness_EncodeOfDecodeIsIdentity : decode false [0x6C, 0xFF, 0x10, 0x02] = .ok (.jmp (.indirect 0x10FF), [0x02]) := by
  decide

theorem witness_NullBytesAreTheListedOnes :
    isNullByte false 0x00 = true ∧ isNullByte true 0x00 = false ∧ isNullByte true 0xFF = true := by decide

/-- A three-byte instruction that wraps past 0xFFFF, no command pending. -/
theorem witness_StepRunsDecodedInstruction :
    let s := startAt 0xFFFE [0x20, 0x00, 0x07] 0x0300 [0x12]
    s.fault = none ∧ s.commands = [] ∧
    decode s.cfg.stdExtras
      [answer s s.bus s.pc, answer s (fetchReads s.pc 1 ++ s.bus) (s.pc + 1),
       answer s (fetchReads s.pc 2 ++ s.bus) (s.pc + 2)] = .ok (.jsr 0x0700, []) := by decide

/-- A `Step` command before others, a one-byte Null opcode. -/
theorem witness_StepRunsDecodedInstruction_command :
    let s := { startAt 0x0300 [0x02] 0 [] with commands := [.step, .reset] }
    s.fault = none ∧ s.commands = .step :: [.reset] ∧
    decode s.cfg.stdExtras
      [answer s s.bus s.pc, answer s (fetchReads s.pc 1 ++ s.bus) (s.pc + 1),
       answer s (fetchReads s.pc 2 ++ s.bus) (s.pc + 2)] = .ok (.null 0x02, [0x00, 0x00]) := by decide

theorem witness_NoOtherConditionRaises : ∀ b, Instr.brk ≠ .null b := by
  intro b h
  cases h

theorem witness_FaultedCoreIgnoresStepAndInterrupt :
    faulted.fault ≠ none ∧ faulted.commands = [] ∧
    ({ faulted with commands := [.interrupt 0x9000, .step] } : State).fault ≠ none ∧
    ({ faulted with commands := [.reset] } : State).fault ≠ none ∧
    (Command.interrupt 0x9000) ≠ .reset ∧ Command.step ≠ .reset := by decide

theorem witness_NullOpcodeAloneFaultsPrecisely :
    let s := startAt 0x0300 [0x02] 0 []
    s.fault = none ∧ step s = .next faulted ∧ faulted.fault = some ⟨0x0300, 0x02⟩ := ⟨rfl, rfl, rfl⟩

/-- An always-Null byte, and 0xEA, which is Null only while STD_EXTRAS is false. -/
theorem witness_NullOpcodeAloneFaultsPrecisely_bytes :
    (let s := { startAt 0x0300 [0x02] 0 [] with cfg := { Params.nyra with stdExtras := true } }
     s.fault = none ∧ s.commands = [] ∧ isNullByte s.cfg.stdExtras (answer s s.bus s.pc) = true) ∧
    (let s := startAt 0x0300 [0xEA] 0 []
     s.fault = none ∧ s.commands = [] ∧ isNullByte s.cfg.stdExtras (answer s s.bus s.pc) = true) := by decide

theorem witness_StepKeepsInvariant : busy.Inv ∧ step busy = .next (after busy) ∧ faulted.Inv :=
  ⟨⟨by decide, by decide, by decide⟩, rfl, ⟨by decide, by decide, by decide⟩⟩

theorem witness_StepKeepsParametersAndHistory : step busy = .next (after busy) := rfl

theorem witness_CyclesNeverDecrease : (∀ cs, busy.commands ≠ .reset :: cs) ∧ step busy = .next (after busy) :=
  ⟨(by intro cs h; cases h), rfl⟩

/-- A cycle-sensitive pairing whose index leaves the page, one whose index just does not, and JMI with no fault. -/
theorem witness_CyclesOfEveryInstruction :
    isResolved (.lda (.absoluteX 0x12F0)) = true ∧ opcodeOf (.lda (.absoluteX 0x12F0)) = some 0xBD ∧
    penaltyOf { start [] with x := 0x10 } (.lda (.absoluteX 0x12F0)) 0x1300 = 3 ∧
    penaltyOf { start [] with x := 0x0F } (.lda (.absoluteX 0x12F0)) 0x12FF = 0 ∧
    penaltyOf { start [] with x := 0x10 } (.sta (.absoluteX 0x12F0)) 0x1300 = 0 ∧
    (start []).fault = none := by decide

theorem witness_AccessesOfEveryInstruction : (start [0x20, 0x00, 0x07]).fault = none := by decide

/-- Zero page, and both indexed modes at the wrap. -/
theorem witness_ZeroPageModeResolution :
    isResolved (.lda (.zeroPage 0xFF)) = true ∧ (Instr.lda (.zeroPage 0xFF)).operand = .zeroPage 0xFF ∧
    isResolved (.sty (.zeroPageX 0xFF)) = true ∧ (Instr.sty (.zeroPageX 0xFF)).operand = .zeroPageX 0xFF ∧
    isResolved (.stx (.zeroPageY 0xFF)) = true ∧ (Instr.stx (.zeroPageY 0xFF)).operand = .zeroPageY 0xFF ∧
    (0xFF + 0x01) % 256 = 0 := by decide

/-- Absolute for a reading and for a storing pairing, and both indexed modes at the top of the address space. -/
theorem witness_AbsoluteModeResolution :
    isResolved (.lda (.absolute 0xFFFF)) = true ∧ (Instr.lda (.absolute 0xFFFF)).operand = .absolute 0xFFFF ∧
    isResolved (.jsr 0xFFFF) = true ∧ (Instr.jsr 0xFFFF).operand = .absolute 0xFFFF ∧
    isResolved (.sta (.absoluteX 0xFFFF)) = true ∧ (Instr.sta (.absoluteX 0xFFFF)).operand = .absoluteX 0xFFFF ∧
    isResolved (.ldx (.absoluteY 0xFFFF)) = true ∧ (Instr.ldx (.absoluteY 0xFFFF)).operand = .absoluteY 0xFFFF := by decide

/-- (zp,X) with X = 1 at 0xFE, so the pointer lies at 0xFF, and (zp),Y at 0xFF. -/
theorem witness_PointerModeResolution :
    let s := { start [] with x := 0x01 }
    isResolved (.lda (.indexedIndirectX 0xFE)) = true ∧
    (Instr.lda (.indexedIndirectX 0xFE)).operand = .indexedIndirectX 0xFE ∧
    (0xFF : Byte).toNat = ((0xFE : Byte).toNat + s.x.toNat) % 256 ∧
    isResolved (.sta (.indirectIndexedY 0xFF)) = true ∧
    (Instr.sta (.indirectIndexedY 0xFF)).operand = .indirectIndexedY 0xFF := by decide

theorem witness_ModesWithoutMemoryResolution :
    isResolved .tax = true ∧ Instr.tax.operand = .implied ∧
    isResolved (.asl .accumulator) = true ∧ (Instr.asl .accumulator).operand = .accumulator ∧
    isResolved (.ldx (.immediate 0xFF)) = true ∧ (Instr.ldx (.immediate 0xFF)).operand = .immediate 0xFF := by decide

/-- Both ends of the offset's range. -/
theorem witness_RelativeModeResolution :
    isResolved (.bne 0x80) = true ∧ (Instr.bne 0x80).operand = .relative 0x80 ∧
    isResolved (.beq 0x7F) = true ∧ (Instr.beq 0x7F).operand = .relative 0x7F := by decide

/-- S = 0, where Push wraps. -/
theorem witness_StackPrimitiveResults :
    let s := { start [] with sp := 0x00 }
    s.mem.wf = true ∧ s.isOpaque (BitVec.ofNat 16 (0x100 + s.sp.toNat)) = false := by decide

/-- An instruction that leaves S; a step of one that changes it; one whose outcome does not depend on it. -/
theorem witness_StackPointerUse :
    (∃ t, exec (.lda (.immediate 0x01)) (start []) = .next t) ∧ writesS (.lda (.immediate 0x01)) = false ∧
    Instr.lda (.immediate 0x01) ≠ .tsx ∧
    step (start [0x48]) = .next (after (start [0x48])) ∧ (after (start [0x48])).sp ≠ (start [0x48]).sp :=
  ⟨⟨_, rfl⟩, rfl, by decide, rfl, by decide⟩

theorem witness_EncodingLinesOfTheRules :
    ((Operand.zeroPageY 0x10).mode, (0x96 : Byte)) ∈ [(Mode.zeroPage, (0x86 : Byte)), (.zeroPageY, 0x96), (.absolute, 0x8E)] ∧
    encode (.stx (.zeroPageY 0x10)) = some [0x96, 0x10] := by decide

/-- A store to plain RAM, and one to an address that the map answers for. -/
theorem witness_StoreResults :
    (let s := { start [] with a := 0x55 }
     s.mem.wf = true ∧
     (Instr.sta (.absolute 0xFFFF), s.a) ∈ [(Instr.sta (.absolute 0xFFFF), s.a), (Instr.stx (.absolute 0xFFFF), s.x),
       (Instr.sty (.absolute 0xFFFF), s.y)] ∧
     (s.prepare (.sta (.absolute 0xFFFF))).1.ea = 0xFFFF ∧ s.isOpaque 0xFFFF = false) ∧
    (let s := deviceEverywhere (start [])
     s.mem.wf = true ∧ (s.prepare (.sta (.absolute 0xFFFF))).1.ea = 0xFFFF ∧ s.isOpaque 0xFFFF = true) := by decide

theorem witness_AccumulatorShiftResults :
    let s := { start [] with a := 0x81, p := Flags.ofByte 0x25 }
    (Instr.ror .accumulator, 0xC0, true) ∈
      [(Instr.asl .accumulator, s.a.toNat * 2 % 256, decide (128 ≤ s.a.toNat)),
       (Instr.lsr .accumulator, s.a.toNat / 2, decide (s.a.toNat % 2 = 1)),
       (Instr.rol .accumulator, (s.a.toNat * 2 + s.p.c.toNat) % 256, decide (128 ≤ s.a.toNat)),
       (Instr.ror .accumulator, s.a.toNat / 2 + 128 * s.p.c.toNat, decide (s.a.toNat % 2 = 1))] := by decide

theorem witness_MemoryShiftResults :
    let s := { startWith [] 0x1310 [0xC0] with x := 0x20 }
    let m := Operand.absoluteX 0x12F0
    let v : Byte := 0xC0
    s.mem.wf = true ∧ m ≠ .accumulator ∧ v = (s.prepare (.asl m)).1.val ∧ (s.prepare (.asl m)).1.ea = 0x1310 ∧
    s.isOpaque 0x1310 = false ∧
    (Instr.asl m, 0x80, true) ∈
      [(Instr.asl m, v.toNat * 2 % 256, decide (128 ≤ v.toNat)),
       (Instr.lsr m, v.toNat / 2, decide (v.toNat % 2 = 1)),
       (Instr.rol m, (v.toNat * 2 + s.p.c.toNat) % 256, decide (128 ≤ v.toNat)),
       (Instr.ror m, v.toNat / 2 + 128 * s.p.c.toNat, decide (v.toNat % 2 = 1))] := by decide

theorem witness_MemoryIncrementResults :
    let s := startWith [] 0x10 [0xFF]
    let m := Operand.zeroPage 0x10
    s.mem.wf = true ∧ (s.prepare (.inc m)).1.ea = 0x0010 ∧ s.isOpaque 0x0010 = false ∧
    (Instr.inc m, 0) ∈ [(Instr.inc m, ((s.prepare (.inc m)).1.val.toNat + 1) % 256),
      (Instr.dec m, ((s.prepare (.inc m)).1.val.toNat + 255) % 256)] := by decide

/-- S = 0, where the decrement wraps. -/
theorem witness_PushResults :
    let s := { start [] with sp := 0x00 }
    s.mem.wf = true ∧ s.isOpaque 0x0100 = false ∧
    (Instr.php, (0x34 : Byte)) ∈ [(Instr.pha, s.a), (Instr.php, statusByte { s.p with b := true })] := by decide

theorem witness_CompareResults :
    let s := { start [] with x := 0xFF }
    (Instr.cpx (.immediate 0x00), s.x) ∈
      [(Instr.cmp (.immediate 0x00), s.a), (Instr.cpx (.immediate 0x00), s.x), (Instr.cpy (.immediate 0x00), s.y)] := by decide

theorem witness_LogicResults :
    let i := Instr.eor (.immediate 0xFF)
    let f : Bool → Bool → Bool := Bool.xor
    i = .and (.immediate 0xFF) ∧ f = Bool.and ∨ i = .ora (.immediate 0xFF) ∧ f = Bool.or ∨
      i = .eor (.immediate 0xFF) ∧ f = Bool.xor := .inr (.inr ⟨rfl, rfl⟩)

theorem witness_DecimalFlagHasNoEffect :
    let i := Instr.adc (.immediate 0x01)
    i ≠ .php ∧ i ≠ .brk ∧ ∀ target, i ≠ .jmi target := ⟨by decide, by decide, by intro t h; cases h⟩

/-- A `Step` of an empty queue, a queued `Step`, a `Reset`, and an `Interrupt` that a faulted core ignores. -/
theorem witness_CoreNeverConsultsInterruptDisable :
    ¬ stepPushesP (start [0x28]) ∧ ¬ stepPushesP { start [0x28] with commands := [.step, .interrupt 0x9000] } ∧
    ¬ stepPushesP { start [0x08] with commands := [.reset] } ∧
    ¬ stepPushesP { faulted with commands := [.interrupt 0x9000] } := by
  refine ⟨?_, ?_, ?_, ?_⟩
  · rintro ⟨-, h | h⟩ <;> exact absurd h (by decide)
  · rintro ⟨-, h | h⟩ <;> exact absurd h (by decide)
  · rintro ⟨-, h⟩
    exact h
  · rintro ⟨h, -⟩
    exact absurd h (by decide)

/-- S = 0, so that the two bytes lie at 0x0100 and 0x01FF. -/
theorem witness_CallResult :
    let s := { start [] with sp := 0x00 }
    s.mem.wf = true ∧ s.isOpaque (stackAddr s.sp) = false ∧ s.isOpaque (stackAddr (s.sp - 1)) = false := by decide

theorem witness_ReturnResult : (start []).mem.wf = true ∧ plainStack (start []) :=
  ⟨by decide, plainStack_start []⟩

theorem witness_InterruptEntryResult :
    faulted.fault ≠ none ∧ (start []).fault = none ∧ (start []).mem.wf = true ∧
    (start []).isOpaque (stackAddr (start []).sp) = false := by decide

theorem witness_InterruptReturnResult :
    (start []).fault = none ∧ (start []).mem.wf = true ∧ plainStack (start []) :=
  ⟨by decide, by decide, plainStack_start []⟩

/-- A branch taken and one not taken. -/
theorem witness_BranchResults :
    let s := start []
    let table (ol : Byte) :=
      [(Instr.bpl ol, (0x10 : Byte), !s.p.n), (Instr.bmi ol, 0x30, s.p.n), (Instr.bvc ol, 0x50, !s.p.v),
       (Instr.bvs ol, 0x70, s.p.v), (Instr.bcc ol, 0x90, !s.p.c), (Instr.bcs ol, 0xB0, s.p.c),
       (Instr.bne ol, 0xD0, !s.p.z), (Instr.beq ol, 0xF0, s.p.z)]
    (Instr.bne 0x80, 0xD0, true) ∈ table 0x80 ∧ (Instr.beq 0x7F, 0xF0, false) ∈ table 0x7F := by decide

/-- Plain RAM, and a map that answers for the whole space, the vector among it. -/
theorem witness_BreakResult :
    (let s := start [0x00]
     s.mem.wf = true ∧ s.isOpaque (stackAddr s.sp) = false ∧ s.isOpaque 0xFFFE = false) ∧
    (deviceEverywhere (start [0x00])).mem.wf = true ∧ (deviceEverywhere (start [0x00])).isOpaque 0xFFFE = true := by decide

theorem witness_PopResults : (start []).mem.wf = true ∧ plainStack (start []) :=
  ⟨by decide, plainStack_start []⟩

/-- W3's bytes; and the longest list the statement admits. -/
theorem witness_PushManyPopManyReverses :
    (start []).mem.wf = true ∧ plainStack (start []) ∧ [(0x11 : Byte), 0x22, 0x33].length ≤ 256 ∧
    (List.replicate 256 (0x5A : Byte)).length ≤ 256 :=
  ⟨by decide, plainStack_start [], by decide, List.length_replicate.le⟩

/-- PHA at S = 0, and BRK, whose vector reads are the exception. -/
theorem witness_StackAccessesStayInPage :
    writesS .pha = true ∧ Instr.pha ≠ .txs ∧ (∃ t, exec .pha { start [] with sp := 0x00 } = .next t) ∧
    writesS .brk = true ∧ Instr.brk ≠ .txs ∧ (∃ t, exec .brk (start []) = .next t) :=
  ⟨rfl, by decide, ⟨_, rfl⟩, rfl, by decide, ⟨_, rfl⟩⟩

theorem witness_RegisterWritersAreTheListedOnes :
    (∃ t, exec (.inc (.zeroPage 0x10)) busy = .next t) ∧ writesA (.inc (.zeroPage 0x10)) = false ∧
    writesX (.inc (.zeroPage 0x10)) = false ∧ writesY (.inc (.zeroPage 0x10)) = false := ⟨⟨_, rfl⟩, rfl, rfl, rfl⟩

theorem witness_FlagWritersAreTheListedOnes :
    (∃ t, exec .txs busy = .next t) ∧ writesC .txs = false ∧ writesZN .txs = false ∧ writesI .txs = false ∧
    writesD .txs = false ∧ writesBU .txs = false ∧ writesV .txs = false := ⟨⟨_, rfl⟩, rfl, rfl, rfl, rfl, rfl, rfl⟩

theorem witness_MemoryWritersAreTheListedOnes :
    (∃ t, exec (.asl .accumulator) busy = .next t ∧ t.bus = [] ++ busy.bus) ∧ writesMemory (.asl .accumulator) = false :=
  ⟨⟨_, rfl, rfl⟩, rfl⟩

theorem witness_ResetCommandResult : ({ faulted with commands := [.reset] } : State).commands = .reset :: [] := rfl

theorem witness_InterruptCommandIsInterruptEntry :
    let s := { start [] with commands := [.interrupt 0x9000, .step] }
    s.commands = .interrupt 0x9000 :: [.step] ∧ s.fault = none := by decide

end Sys2Proof.Tests
end

