-- ==== Sys2Proof/Proofs/Scope.lean ====
section
/-! The driver's commands (00_scope.md R6): the step of each command, what every instruction keeps and only adds to, and
the two statements of 00_scope.md. -/

namespace Sys2Proof.Machine

/-! ## The step, by the driver's next command -/

theorem step_of_no_command {s : State} (h : s.commands = []) : step s = stepCommand s := by
  rw [step, h]

theorem step_of_step {s : State} {cs : List Command} (h : s.commands = .step :: cs) :
    step s = stepCommand { s with commands := cs } := by
  rw [step, h]

theorem step_of_reset {s : State} {cs : List Command} (h : s.commands = .reset :: cs) :
    step s = .next (State.resetSequence { s with commands := cs }) := by
  rw [step, h]

theorem step_of_interrupt {s : State} {target : Word} {cs : List Command} (h : s.commands = .interrupt target :: cs) :
    step s = exec (.jmi target) { s with commands := cs } := by
  rw [step, h]

/-! ## What an instruction keeps and only adds to -/

/-- `t` has the parameters, the memory map and the pending commands of `s`, and its history and CYC are those of `s` with
something added: what every part of an instruction does (not Reset, which sets CYC to 0). -/
structure State.Extends (s t : State) : Prop where
  cfg : t.cfg = s.cfg
  opaqueRegions : t.opaqueRegions = s.opaqueRegions
  commands : t.commands = s.commands
  bus : s.bus <:+ t.bus
  cyc : s.cyc ≤ t.cyc

namespace State.Extends

variable {s t u : State}

theorem refl (s : State) : s.Extends s := ⟨rfl, rfl, rfl, List.suffix_rfl, le_rfl⟩

theorem trans (h : s.Extends t) (h' : t.Extends u) : s.Extends u where
  cfg := h'.cfg.trans h.cfg
  opaqueRegions := h'.opaqueRegions.trans h.opaqueRegions
  commands := h'.commands.trans h.commands
  bus := h.bus.trans h'.bus
  cyc := h.cyc.trans h'.cyc

theorem with_pc (h : s.Extends t) (w : Word) : s.Extends { t with pc := w } :=
  ⟨h.cfg, h.opaqueRegions, h.commands, h.bus, h.cyc⟩

theorem with_p (h : s.Extends t) (q : Flags) : s.Extends { t with p := q } :=
  ⟨h.cfg, h.opaqueRegions, h.commands, h.bus, h.cyc⟩

end State.Extends

namespace State

/-! ### The shared operations -/

theorem memWrite_extends (s : State) (addr : Word) (v : Byte) : s.Extends (s.memWrite addr v) := by
  rw [memWrite_eq]
  exact ⟨rfl, rfl, rfl, List.suffix_cons _ _, le_rfl⟩

theorem push_extends (s : State) (v : Byte) : s.Extends (s.push v) := by
  rw [push_eq]
  exact ⟨rfl, rfl, rfl, List.suffix_cons _ _, le_rfl⟩

theorem pop_extends (s : State) : s.Extends s.pop.2 := ⟨rfl, rfl, rfl, List.suffix_cons _ _, le_rfl⟩

theorem pushWord_extends (s : State) (w : Word) : s.Extends (s.pushWord w) :=
  (s.push_extends _).trans (push_extends _ _)

theorem popWord_extends (s : State) : s.Extends s.popWord.2 := s.pop_extends.trans (pop_extends _)

theorem read16_extends (s : State) (a : Word) : s.Extends (s.read16 a).2 :=
  ⟨rfl, rfl, rfl, ⟨[_, _], rfl⟩, le_rfl⟩

theorem saveContext_extends (s : State) (ret : Word) (status : Byte) : s.Extends (s.saveContext ret status) :=
  (s.pushWord_extends ret).trans (push_extends _ status)

theorem interruptEntry_extends (s : State) (target : Word) : s.Extends (s.interruptEntry target) := by
  have saved := s.saveContext_extends s.pc s.p.toByte
  exact ⟨saved.cfg, saved.opaqueRegions, saved.commands, saved.bus, saved.cyc.trans (Nat.le_add_right _ _)⟩

theorem softwareTrap_extends (s : State) : s.Extends s.softwareTrap :=
  (((s.saveContext_extends _ _).with_p _).trans (read16_extends _ irqBrkVector)).with_pc _

theorem interruptReturn_extends (s : State) : s.Extends s.interruptReturn :=
  ((s.pop_extends.with_p _).trans (popWord_extends _)).with_pc _

theorem storeAndTest_extends (s : State) (ea : Word) (v : Byte) : s.Extends (s.storeAndTest ea v) :=
  (s.memWrite_extends ea v).with_p _

theorem writeBackShift_extends (s : State) (m : Mode) (ea : Word) (r : Byte × Flags) :
    s.Extends (s.writeBackShift m ea r) := by
  unfold writeBackShift
  split
  · exact ⟨rfl, rfl, rfl, List.suffix_rfl, le_rfl⟩
  · exact (s.memWrite_extends ea r.1).with_p _

theorem fetch_extends (s : State) : s.Extends s.fetch.2 := by
  obtain ⟨l, h⟩ := fetch_frame s
  rw [h]
  exact ⟨rfl, rfl, rfl, List.suffix_append _ _, le_rfl⟩

theorem prepare_extends (s : State) (i : Instr) : s.Extends (s.prepare i).2 := by
  obtain ⟨n, l, h⟩ := prepare_frame s i
  rw [h]
  exact ⟨rfl, rfl, rfl, List.suffix_append _ _, Nat.le_add_right _ _⟩

/-- A control operation extends the state if its execute phase does. -/
theorem runControl_extends (s : State) (i : Instr) {f : Latch → State → State}
    (hf : ∀ r (t : State), t.Extends (f r t)) : s.Extends (s.runControl i f) :=
  (s.prepare_extends i).trans (hf _ _)

/-- Any other operation extends the state if its execute phase does. -/
theorem runSequential_extends (s : State) (i : Instr) {f : Latch → State → State}
    (hf : ∀ r (t : State), t.Extends (f r t)) : s.Extends (s.runSequential i f) :=
  (s.runControl_extends i hf).with_pc _

end State

open State

/-! ### Every instruction, every command -/

/-- Every instruction keeps the parameters, the map and the queue, and only adds to the history and to CYC. -/
theorem exec_extends {i : Instr} {s t : State} (h : exec i s = .next t) : s.Extends t := by
  cases i <;> obtain rfl := Host.Outcome.next.inj h
  case sta | stx | sty => exact s.runSequential_extends _ fun _ t => t.memWrite_extends _ _
  case inc | dec => exact s.runSequential_extends _ fun _ t => t.storeAndTest_extends _ _
  case asl | lsr | rol | ror => exact s.runSequential_extends _ fun _ t => t.writeBackShift_extends _ _ _
  case pha | php => exact s.runSequential_extends _ fun _ t => t.push_extends _
  case pla => exact s.runSequential_extends _ fun _ t => t.pop_extends.trans ⟨rfl, rfl, rfl, List.suffix_rfl, le_rfl⟩
  case plp => exact s.runSequential_extends _ fun _ t => t.pop_extends.with_p _
  case jsr => exact s.runControl_extends _ fun _ t => (t.pushWord_extends _).with_pc _
  case rts => exact s.runControl_extends _ fun _ t => t.popWord_extends.with_pc _
  case rti => exact s.runControl_extends _ fun _ t => t.interruptReturn_extends
  case brk => exact s.runControl_extends _ fun _ t => t.softwareTrap_extends
  case jmi target =>
    split
    · exact .refl s
    · exact s.interruptEntry_extends target
  case null => exact ⟨rfl, rfl, rfl, List.suffix_rfl, le_rfl⟩
  -- Jumps and branches write PC alone.
  case jmp | bpl | bmi | bvc | bvs | bcc | bcs | bne | beq =>
    exact s.runControl_extends _ fun _ t => (Extends.refl t).with_pc _
  -- The others write registers and flags alone.
  all_goals exact s.runSequential_extends _ fun _ _ => ⟨rfl, rfl, rfl, List.suffix_rfl, le_rfl⟩

theorem stepCommand_extends {s t : State} (h : stepCommand s = .next t) : s.Extends t := by
  unfold stepCommand at h
  split at h
  · obtain rfl := Host.Outcome.next.inj h
    exact .refl s
  · exact s.fetch_extends.trans (exec_extends h)

/-- A step that is no `Reset` takes one command of the driver, if one is pending, and otherwise extends the state. -/
theorem step_extends {s t : State} (hr : ∀ cs, s.commands ≠ .reset :: cs) (h : step s = .next t) :
    State.Extends { s with commands := s.commands.tail } t := by
  rcases hc : s.commands with _ | ⟨c, cs⟩
  · rw [step_of_no_command hc] at h
    have kept := stepCommand_extends h
    exact ⟨kept.cfg, kept.opaqueRegions, kept.commands.trans hc, kept.bus, kept.cyc⟩
  · cases c with
    | step => exact stepCommand_extends (step_of_step hc ▸ h)
    | reset => exact absurd hc (hr cs)
    | interrupt target => exact exec_extends (step_of_interrupt hc ▸ h)

end Sys2Proof.Machine

namespace Sys2Proof.Proofs

open Machine

/-- Settles O12: `Reset` keeps the parameters and the map and adds the two reads of the vector; every other step extends
the state that is left when its command has been taken. -/
theorem stepKeepsParametersAndHistory : Obligations.StepKeepsParametersAndHistory := by
  intro s t h
  by_cases hr : ∃ cs, s.commands = .reset :: cs
  · obtain ⟨cs, hc⟩ := hr
    rw [step_of_reset hc] at h
    obtain rfl := Host.Outcome.next.inj h
    exact ⟨rfl, rfl, ⟨[.read (resetVector + 1), .read resetVector], rfl⟩, by rw [hc]; rfl⟩
  · have kept := step_extends (fun cs hc => hr ⟨cs, hc⟩) h
    obtain ⟨l, hl⟩ := kept.bus
    exact ⟨kept.cfg, kept.opaqueRegions, ⟨l, hl.symm⟩, kept.commands⟩

/-- Settles O59: the command is JMI in the state without it, and JMI with no fault adds the three pushes to the history and
no read. -/
theorem interruptCommandIsInterruptEntry : Obligations.InterruptCommandIsInterruptEntry := by
  intro s target cs hc hf
  have hstep := step_of_interrupt hc
  refine ⟨hstep, _, hstep.trans (exec_jmi_entry target hf), rfl, ?_⟩
  rw [State.saveContext_eq]
  refine ⟨rfl, rfl, rfl, fun addr l hl => ?_⟩
  have pushes : [.write (stackAddr (s.sp - 2)) s.p.toByte, .write (stackAddr (s.sp - 1)) (loByte s.pc),
      .write (stackAddr s.sp) (hiByte s.pc)] = l := List.append_cancel_right hl
  simp [← pushes]

end Sys2Proof.Proofs
end

