-- ==== Sys2Proof/Proofs/State.lean ====
section
/-! The state of the core (10_state.md): what an instruction can change, what it cannot see, and the statements about S, the
registers, the flags, CYC and FAULT. -/

namespace Sys2Proof.Machine

open Claims

/-! ## What an instruction may change -/

/-- In a chain of two changes, what neither may write is kept. -/
theorem writer_or_kept_trans {α : Type} {w : Prop} {x y z : α} (h : w ∨ y = x) (h' : w ∨ z = y) : w ∨ z = x :=
  h.elim .inl fun e => h'.imp_right (·.trans e)

/-- What is not written is kept. -/
theorem kept_of_not_writer {p : Prop} {w : Bool} (h : w = true ∨ p) (hw : w = false) : p :=
  h.resolve_left (Bool.eq_false_iff.mp hw)

theorem mode_eq_accumulator_iff {m : Operand} : m.mode = .accumulator ↔ m = .accumulator := by
  cases m <;> simp [Operand.mode]

/-- `q` differs from `p` in flags that `j` writes and in no other (10_state.md R29 to R36). -/
structure Flags.ChangesOnly (j : Instr) (p q : Flags) : Prop where
  c : writesC j = true ∨ q.c = p.c
  z : writesZN j = true ∨ q.z = p.z
  n : writesZN j = true ∨ q.n = p.n
  i : writesI j = true ∨ q.i = p.i
  d : writesD j = true ∨ q.d = p.d
  b : writesBU j = true ∨ q.b = p.b
  u : writesBU j = true ∨ q.u = p.u
  v : writesV j = true ∨ q.v = p.v

namespace Flags

variable {i : Instr}

namespace ChangesOnly

theorem refl (p : Flags) : p.ChangesOnly i p :=
  ⟨.inr rfl, .inr rfl, .inr rfl, .inr rfl, .inr rfl, .inr rfl, .inr rfl, .inr rfl⟩

theorem trans {p q r : Flags} (h : p.ChangesOnly i q) (h' : q.ChangesOnly i r) : p.ChangesOnly i r where
  c := writer_or_kept_trans h.c h'.c
  z := writer_or_kept_trans h.z h'.z
  n := writer_or_kept_trans h.n h'.n
  i := writer_or_kept_trans h.i h'.i
  d := writer_or_kept_trans h.d h'.d
  b := writer_or_kept_trans h.b h'.b
  u := writer_or_kept_trans h.u h'.u
  v := writer_or_kept_trans h.v h'.v

end ChangesOnly

/-! ### The flag helpers (40_alu_flag_helpers.md) -/

theorem setZN_changesOnly (p : Flags) (v : Byte) (hzn : writesZN i = true) : p.ChangesOnly i (p.setZN v) :=
  { ChangesOnly.refl p with z := .inl hzn, n := .inl hzn }

theorem compare_changesOnly (p : Flags) (v r : Byte) (hc : writesC i = true) (hzn : writesZN i = true) :
    p.ChangesOnly i (p.compare v r) :=
  { ChangesOnly.refl p with c := .inl hc, z := .inl hzn, n := .inl hzn }

theorem bitTest_changesOnly (p : Flags) (v a : Byte) (hzn : writesZN i = true) (hv : writesV i = true) :
    p.ChangesOnly i (p.bitTest v a) :=
  { ChangesOnly.refl p with z := .inl hzn, n := .inl hzn, v := .inl hv }

theorem shiftLeft_changesOnly (p : Flags) (v : Byte) (rotate : Bool) (hc : writesC i = true) (hzn : writesZN i = true) :
    p.ChangesOnly i (shiftLeft p v rotate).2 :=
  { ChangesOnly.refl p with c := .inl hc, z := .inl hzn, n := .inl hzn }

theorem shiftRight_changesOnly (p : Flags) (v : Byte) (rotate : Bool) (hc : writesC i = true) (hzn : writesZN i = true) :
    p.ChangesOnly i (shiftRight p v rotate).2 :=
  { ChangesOnly.refl p with c := .inl hc, z := .inl hzn, n := .inl hzn }

theorem addWithCarry_changesOnly (p : Flags) (a v : Byte) (hc : writesC i = true) (hzn : writesZN i = true)
    (hv : writesV i = true) : p.ChangesOnly i (addWithCarry p a v).2 :=
  { ChangesOnly.refl p with c := .inl hc, z := .inl hzn, n := .inl hzn, v := .inl hv }

/-- PLP and RTI may write every flag. -/
theorem changesOnly_of_pops_status (p q : Flags) (hi : i = .plp ∨ i = .rti) : p.ChangesOnly i q := by
  rcases hi with rfl | rfl <;>
    exact ⟨.inl rfl, .inl rfl, .inl rfl, .inl rfl, .inl rfl, .inl rfl, .inl rfl, .inl rfl⟩

end Flags

/-- From `s` to `t`, registers, S and flags change only where `i` is a listed writer, FAULT only if `i` is Null, and RAM
stays canonical. The lists are those of 10_state.md R23, R25 and R29 to R36. -/
structure State.ChangesOnly (i : Instr) (s t : State) : Prop where
  a : writesA i = true ∨ t.a = s.a
  x : writesX i = true ∨ t.x = s.x
  y : writesY i = true ∨ t.y = s.y
  sp : writesS i = true ∨ t.sp = s.sp
  p : s.p.ChangesOnly i t.p
  fault : (∃ op, i = .null op) ∨ t.fault = s.fault
  wf : s.mem.wf = true → t.mem.wf = true

namespace State

variable {i : Instr} {s t u : State}

namespace ChangesOnly

theorem refl (s : State) : s.ChangesOnly i s := ⟨.inr rfl, .inr rfl, .inr rfl, .inr rfl, .refl _, .inr rfl, id⟩

theorem trans (h : s.ChangesOnly i t) (h' : t.ChangesOnly i u) : s.ChangesOnly i u where
  a := writer_or_kept_trans h.a h'.a
  x := writer_or_kept_trans h.x h'.x
  y := writer_or_kept_trans h.y h'.y
  sp := writer_or_kept_trans h.sp h'.sp
  p := h.p.trans h'.p
  fault := writer_or_kept_trans h.fault h'.fault
  wf := h'.wf ∘ h.wf

theorem with_pc (h : s.ChangesOnly i t) (w : Word) : s.ChangesOnly i { t with pc := w } :=
  ⟨h.a, h.x, h.y, h.sp, h.p, h.fault, h.wf⟩

theorem with_p (h : s.ChangesOnly i t) {q : Flags} (hq : t.p.ChangesOnly i q) : s.ChangesOnly i { t with p := q } :=
  ⟨h.a, h.x, h.y, h.sp, h.p.trans hq, h.fault, h.wf⟩

end ChangesOnly

/-! ### The shared operations -/

theorem setRegisterA_changesOnly (s : State) (v : Byte) (hA : writesA i = true) (hzn : writesZN i = true) :
    s.ChangesOnly i (s.setRegisterA v) :=
  { ChangesOnly.refl s with a := .inl hA, p := s.p.setZN_changesOnly v hzn }

theorem setRegisterX_changesOnly (s : State) (v : Byte) (hX : writesX i = true) (hzn : writesZN i = true) :
    s.ChangesOnly i (s.setRegisterX v) :=
  { ChangesOnly.refl s with x := .inl hX, p := s.p.setZN_changesOnly v hzn }

theorem setRegisterY_changesOnly (s : State) (v : Byte) (hY : writesY i = true) (hzn : writesZN i = true) :
    s.ChangesOnly i (s.setRegisterY v) :=
  { ChangesOnly.refl s with y := .inl hY, p := s.p.setZN_changesOnly v hzn }

theorem addToA_changesOnly (s : State) (v : Byte) (hA : writesA i = true) (hc : writesC i = true)
    (hzn : writesZN i = true) (hv : writesV i = true) : s.ChangesOnly i (s.addToA v) :=
  { ChangesOnly.refl s with a := .inl hA, p := s.p.addWithCarry_changesOnly s.a v hc hzn hv }

theorem memWrite_changesOnly (s : State) (addr : Word) (v : Byte) : s.ChangesOnly i (s.memWrite addr v) := by
  rw [memWrite_eq]
  exact { ChangesOnly.refl s with wf := fun h => wf_ramAfter h addr v }

theorem push_changesOnly (s : State) (v : Byte) (hS : writesS i = true) : s.ChangesOnly i (s.push v) := by
  rw [push_eq]
  exact { ChangesOnly.refl s with sp := .inl hS, wf := fun h => wf_ramAfter h _ v }

theorem pop_changesOnly (s : State) (hS : writesS i = true) : s.ChangesOnly i s.pop.2 :=
  { ChangesOnly.refl s with sp := .inl hS }

theorem pushWord_changesOnly (s : State) (w : Word) (hS : writesS i = true) : s.ChangesOnly i (s.pushWord w) :=
  (s.push_changesOnly _ hS).trans (push_changesOnly _ _ hS)

theorem popWord_changesOnly (s : State) (hS : writesS i = true) : s.ChangesOnly i s.popWord.2 :=
  (s.pop_changesOnly hS).trans (pop_changesOnly _ hS)

theorem saveContext_changesOnly (s : State) (ret : Word) (status : Byte) (hS : writesS i = true) :
    s.ChangesOnly i (s.saveContext ret status) :=
  (s.pushWord_changesOnly ret hS).trans (push_changesOnly _ status hS)

theorem interruptEntry_changesOnly (s : State) (target : Word) (hS : writesS i = true) :
    s.ChangesOnly i (s.interruptEntry target) := by
  rw [interruptEntry_eq]
  exact { s.saveContext_changesOnly s.pc s.p.toByte hS with }

theorem softwareTrap_changesOnly (s : State) (hS : writesS i = true) (hI : writesI i = true) :
    s.ChangesOnly i s.softwareTrap := by
  rw [softwareTrap_eq]
  exact { s.saveContext_changesOnly _ _ hS with p := { Flags.ChangesOnly.refl s.p with i := .inl hI } }

theorem interruptReturn_changesOnly (s : State) : s.ChangesOnly .rti s.interruptReturn :=
  (((s.pop_changesOnly rfl).with_p (Flags.changesOnly_of_pops_status _ _ (.inr rfl))).trans
    (popWord_changesOnly _ rfl)).with_pc _

theorem storeAndTest_changesOnly (s : State) (ea : Word) (v : Byte) (hzn : writesZN i = true) :
    s.ChangesOnly i (s.storeAndTest ea v) :=
  (s.memWrite_changesOnly ea v).with_p (Flags.setZN_changesOnly _ v hzn)

/-- A shift writes A in Accumulator mode and memory in the others (42_shift_rotate.md R101). -/
theorem writeBackShift_changesOnly (s : State) (m : Operand) (ea : Word) {r : Byte × Flags}
    (hA : m = .accumulator → writesA i = true) (hr : s.p.ChangesOnly i r.2) :
    s.ChangesOnly i (s.writeBackShift m.mode ea r) := by
  rw [writeBackShift_eq]
  by_cases hm : m = .accumulator
  · simp only [mode_eq_accumulator_iff, if_pos hm]
    exact { ChangesOnly.refl s with a := .inl (hA hm), p := hr }
  · simp only [mode_eq_accumulator_iff, if_neg hm]
    exact { ChangesOnly.refl s with p := hr, wf := fun h => wf_ramAfter h ea r.1 }

theorem prepare_changesOnly (s : State) (j : Instr) : s.ChangesOnly i (s.prepare j).2 := by
  obtain ⟨n, l, h⟩ := prepare_frame s j
  rw [h]
  exact { ChangesOnly.refl s with }

/-- A control operation changes what its execute phase changes, and PC. -/
theorem runControl_changesOnly (s : State) (j : Instr) {f : Latch → State → State}
    (hf : ∀ r (t : State), t.ChangesOnly i (f r t)) : s.ChangesOnly i (s.runControl j f) :=
  (s.prepare_changesOnly j).trans (hf _ _)

/-- Any other operation changes what its execute phase changes, and PC. -/
theorem runSequential_changesOnly (s : State) (j : Instr) {f : Latch → State → State}
    (hf : ∀ r (t : State), t.ChangesOnly i (f r t)) : s.ChangesOnly i (s.runSequential j f) :=
  (s.runControl_changesOnly j hf).with_pc _

end State

open State

/-! ### Every instruction -/

/-- Every instruction changes only what the lists give it. -/
theorem exec_changesOnly {i : Instr} {s t : State} (h : exec i s = .next t) : s.ChangesOnly i t := by
  cases i <;> obtain rfl := Host.Outcome.next.inj h
  case lda | and | ora | eor | txa | tya =>
    exact s.runSequential_changesOnly _ fun _ t => t.setRegisterA_changesOnly _ rfl rfl
  case ldx | tax | tsx | inx | dex =>
    exact s.runSequential_changesOnly _ fun _ t => t.setRegisterX_changesOnly _ rfl rfl
  case ldy | tay | iny | dey =>
    exact s.runSequential_changesOnly _ fun _ t => t.setRegisterY_changesOnly _ rfl rfl
  case adc | sbc => exact s.runSequential_changesOnly _ fun _ t => t.addToA_changesOnly _ rfl rfl rfl rfl
  case sta | stx | sty => exact s.runSequential_changesOnly _ fun _ t => t.memWrite_changesOnly _ _
  case inc | dec => exact s.runSequential_changesOnly _ fun _ t => t.storeAndTest_changesOnly _ _ rfl
  case asl m | rol m =>
    exact s.runSequential_changesOnly _ fun r t =>
      t.writeBackShift_changesOnly m _ decide_eq_true (t.p.shiftLeft_changesOnly r.val _ rfl rfl)
  case lsr m | ror m =>
    exact s.runSequential_changesOnly _ fun r t =>
      t.writeBackShift_changesOnly m _ decide_eq_true (t.p.shiftRight_changesOnly r.val _ rfl rfl)
  case cmp | cpx | cpy =>
    exact s.runSequential_changesOnly _ fun _ t => (ChangesOnly.refl t).with_p (t.p.compare_changesOnly _ _ rfl rfl)
  case bit =>
    exact s.runSequential_changesOnly _ fun _ t => (ChangesOnly.refl t).with_p (t.p.bitTest_changesOnly _ _ rfl rfl)
  case sec | clc =>
    exact s.runSequential_changesOnly _ fun _ t =>
      (ChangesOnly.refl t).with_p { Flags.ChangesOnly.refl t.p with c := .inl rfl }
  case sei | cli =>
    exact s.runSequential_changesOnly _ fun _ t =>
      (ChangesOnly.refl t).with_p { Flags.ChangesOnly.refl t.p with i := .inl rfl }
  case sed | cld =>
    exact s.runSequential_changesOnly _ fun _ t =>
      (ChangesOnly.refl t).with_p { Flags.ChangesOnly.refl t.p with d := .inl rfl }
  case clv =>
    exact s.runSequential_changesOnly _ fun _ t =>
      (ChangesOnly.refl t).with_p { Flags.ChangesOnly.refl t.p with v := .inl rfl }
  case txs => exact s.runSequential_changesOnly _ fun _ t => { ChangesOnly.refl t with sp := .inl rfl }
  case nop => exact s.runSequential_changesOnly _ fun _ t => .refl t
  case pha | php => exact s.runSequential_changesOnly _ fun _ t => t.push_changesOnly _ rfl
  case pla =>
    exact s.runSequential_changesOnly _ fun _ t =>
      (t.pop_changesOnly rfl).trans (setRegisterA_changesOnly _ _ rfl rfl)
  case plp =>
    exact s.runSequential_changesOnly _ fun _ t =>
      (t.pop_changesOnly rfl).with_p (Flags.changesOnly_of_pops_status _ _ (.inl rfl))
  case jmp | bpl | bmi | bvc | bvs | bcc | bcs | bne | beq =>
    exact s.runControl_changesOnly _ fun _ t => (ChangesOnly.refl t).with_pc _
  case jsr => exact s.runControl_changesOnly _ fun _ t => (t.pushWord_changesOnly _ rfl).with_pc _
  case rts => exact s.runControl_changesOnly _ fun _ t => (t.popWord_changesOnly rfl).with_pc _
  case rti => exact s.runControl_changesOnly _ fun _ t => t.interruptReturn_changesOnly
  case brk => exact s.runControl_changesOnly _ fun _ t => t.softwareTrap_changesOnly rfl rfl
  case jmi target =>
    split
    · exact .refl s
    · exact s.interruptEntry_changesOnly target rfl
  case null op => exact { ChangesOnly.refl s with fault := .inl ⟨op, rfl⟩ }

/-! ## What an instruction cannot see -/

/-- A value put into S, Interrupt-disable or Decimal, the parts of the state that few instructions read. -/
inductive Overlay where
  | sp (q : Byte)
  | interruptDisable (b : Bool)
  | decimal (b : Bool)

namespace Overlay

/-- `s` with the overlay's value in its place. -/
def put : Overlay → State → State
  | .sp q, s => { s with sp := q }
  | .interruptDisable b, s => withI s b
  | .decimal b, s => withD s b

/-- `i` cannot see the part overlaid. S is seen by TSX and by the users of Push and Pop (10_state.md R25; the list `writesS`
has TXS too, which need not be here), the two flags by the pushes of P (R31, R32). -/
def Unseen : Overlay → Instr → Prop
  | .sp _, i => writesS i = false ∧ i ≠ .tsx
  | .interruptDisable _, i | .decimal _, i => i ≠ .php ∧ i ≠ .brk ∧ ∀ target, i ≠ .jmi target

/-- `f` leaves the same state, but for the part overlaid, whatever value that part had. -/
def Blind (o : Overlay) (f : State → State) : Prop := ∀ t, o.put (f (o.put t)) = o.put (f t)

variable (o : Overlay)

theorem put_with_pc (s : State) (w : Word) : o.put { s with pc := w } = { o.put s with pc := w } := by
  cases o <;> rfl

theorem put_pc (s : State) : (o.put s).pc = s.pc := by
  cases o <;> rfl

/-- Preparation neither reads nor writes the part overlaid. -/
theorem prepare_put (s : State) (i : Instr) : (o.put s).prepare i = ((s.prepare i).1, o.put (s.prepare i).2) := by
  cases o with
  | sp q => exact s.prepare_with_sp q i
  | interruptDisable b => simp only [put, withI, prepare_with_p, prepare_p]
  | decimal b => simp only [put, withD, prepare_with_p, prepare_p]

/-- A control operation is blind if its execute phase is. -/
theorem runControl_blind (i : Instr) {f : Latch → State → State} (hf : ∀ r, o.Blind (f r)) :
    o.Blind (State.runControl · i f) := by
  intro s
  simp only [runControl_eq, prepare_put]
  exact hf _ _

/-- Any other operation is blind if its execute phase is. -/
theorem runSequential_blind (i : Instr) {f : Latch → State → State} (hf : ∀ r, o.Blind (f r)) :
    o.Blind (State.runSequential · i f) := by
  intro s
  simp only [runSequential_eq, prepare_put, put_with_pc, put_pc]
  rw [hf]

end Overlay

/-- An instruction that cannot see S, or the flag, runs the same whatever it holds. -/
theorem exec_blind {o : Overlay} {i : Instr} (h : o.Unseen i) :
    ∃ f : State → State, (∀ s, exec i s = .next (f s)) ∧ o.Blind f := by
  cases i
  -- The accesses to memory are the same.
  case sta | stx | sty =>
    refine ⟨_, fun _ => rfl, o.runSequential_blind _ fun _ t => ?_⟩
    simp only [memWrite_eq]
    cases o <;> rfl
  case inc | dec =>
    refine ⟨_, fun _ => rfl, o.runSequential_blind _ fun _ t => ?_⟩
    simp only [storeAndTest_eq]
    cases o <;> rfl
  case asl | lsr | rol | ror =>
    refine ⟨_, fun _ => rfl, o.runSequential_blind _ fun _ t => ?_⟩
    simp only [writeBackShift_eq]
    cases o <;> rfl
  -- The users of Push and Pop see S, and no flag.
  case pha =>
    refine ⟨_, fun _ => rfl, o.runSequential_blind _ fun _ t => ?_⟩
    simp only [push_eq]
    cases o with
    | sp q => nomatch h.1
    | interruptDisable b | decimal b => rfl
  case pla | plp =>
    refine ⟨_, fun _ => rfl, o.runSequential_blind _ fun _ t => ?_⟩
    cases o with
    | sp q => nomatch h.1
    | interruptDisable b | decimal b => rfl
  case jsr =>
    refine ⟨_, fun _ => rfl, o.runControl_blind _ fun _ t => ?_⟩
    simp only [pushWord_eq, push_eq]
    cases o with
    | sp q => nomatch h.1
    | interruptDisable b | decimal b => rfl
  case rts | rti =>
    refine ⟨_, fun _ => rfl, o.runControl_blind _ fun _ t => ?_⟩
    cases o with
    | sp q => nomatch h.1
    | interruptDisable b | decimal b => rfl
  -- TSX sees S, the pushes of P see it and both flags.
  case tsx =>
    refine ⟨_, fun _ => rfl, o.runSequential_blind _ fun _ t => ?_⟩
    cases o with
    | sp q => exact absurd rfl h.2
    | interruptDisable b | decimal b => rfl
  case php | brk | jmi =>
    cases o with
    | sp q => nomatch h.1
    | interruptDisable b | decimal b => simp [Overlay.Unseen] at h
  case null => exact ⟨_, fun _ => rfl, fun t => by cases o <;> rfl⟩
  case jmp | bpl | bmi | bvc | bvs | bcc | bcs | bne | beq =>
    exact ⟨_, fun _ => rfl, o.runControl_blind _ fun _ t => by cases o <;> rfl⟩
  -- The others use registers, C, Z, V and N alone.
  all_goals exact ⟨_, fun _ => rfl, o.runSequential_blind _ fun _ t => by cases o <;> rfl⟩

theorem with_sp_of_eq {s : State} {q : Byte} (h : s.sp = q) : { s with sp := q } = s := by
  rw [← h]

/-- TXS gives S its value, whatever it was. -/
theorem exec_txs_with_sp (s : State) (q : Byte) : exec .txs { s with sp := q } = exec .txs s := by
  simp only [exec_txs, ← prepare_snd, prepare_with_sp]
  rfl

/-! ## The fetch and the step -/

/-- The fetch reads neither the flags nor the pending commands. -/
theorem fetch_with_p_commands (s : State) (q : Flags) (cs : List Command) :
    State.fetch { s with p := q, commands := cs } = (s.fetch.1, { s.fetch.2 with p := q, commands := cs }) := by
  rw [fetch_eq, fetch_eq]
  have hop : State.peek { s with p := q, commands := cs } s.pc = s.peek s.pc := rfl
  dsimp only
  rw [hop]
  generalize decide (2 ≤ lengthOf s.cfg.stdExtras (s.peek s.pc)) = two
  generalize decide (lengthOf s.cfg.stdExtras (s.peek s.pc) = 3) = three
  cases two <;> cases three <;> rfl

theorem fetch_fst_with_commands (s : State) (cs : List Command) :
    (State.fetch { s with commands := cs }).1 = s.fetch.1 := by
  rw [fetch_with_p_commands s s.p cs]

/-- What is fetched is an instruction of the core (30_encoding.md R67). -/
theorem fetch_wellFormed (s : State) : s.fetch.1.wellFormed s.cfg.stdExtras = true := instrOf_wellFormed _ _ _ _

theorem fetch_ne_jmi (s : State) (target : Word) : s.fetch.1 ≠ .jmi target := by
  intro h
  have hop : opcodeOf s.fetch.1 = some _ := opcodeOf_instrOf _ _ _ _
  rw [h] at hop
  exact nomatch hop

theorem stepCommand_of_fault {s : State} (h : s.fault ≠ none) : stepCommand s = .next s :=
  if_pos (Option.isSome_iff_ne_none.mpr h)

theorem stepCommand_of_no_fault {s : State} (h : s.fault = none) : stepCommand s = exec s.fetch.1 s.fetch.2 := by
  rw [stepCommand, h]
  rfl

theorem exec_jmi_of_fault (target : Word) {s : State} (h : s.fault ≠ none) : exec (.jmi target) s = .next s := by
  rw [exec_jmi, if_pos (Option.isSome_iff_ne_none.mpr h)]

/-- A `Step` changes S only if it runs a writer of S. -/
theorem stepCommand_sp_writer {s t : State} (h : stepCommand s = .next t) (hne : t.sp ≠ s.sp) :
    writesS s.fetch.1 = true := by
  by_cases hf : s.fault = none
  · rw [stepCommand_of_no_fault hf] at h
    refine (exec_changesOnly h).sp.resolve_right ?_
    rwa [fetch_sp]
  · rw [stepCommand_of_fault hf] at h
    obtain rfl := Host.Outcome.next.inj h
    exact absurd rfl hne

/-- A `Step` that runs no PHP and no BRK leaves the same state, but for I, whatever I holds. -/
theorem stepCommand_withI {s : State} {b : Bool}
    (hp : s.fault = none → ¬ (s.fetch.1 = .php ∨ s.fetch.1 = .brk)) :
    ∃ t u, stepCommand s = .next t ∧ stepCommand (withI s b) = .next u ∧ withI u b = withI t b := by
  by_cases hf : s.fault = none
  · obtain ⟨hphp, hbrk⟩ := not_or.mp (hp hf)
    obtain ⟨f, hfx, blind⟩ := exec_blind (o := .interruptDisable b) ⟨hphp, hbrk, fetch_ne_jmi s⟩
    have hfetch : (withI s b).fetch = (s.fetch.1, withI s.fetch.2 b) := by
      simpa [withI] using fetch_with_p_commands s { s.p with i := b } s.commands
    refine ⟨f s.fetch.2, f (withI s.fetch.2 b), ?_, ?_, blind _⟩
    · rw [stepCommand_of_no_fault hf, hfx]
    · rw [stepCommand_of_no_fault (s := withI s b) hf, hfetch, hfx]
  · exact ⟨s, withI s b, stepCommand_of_fault hf, stepCommand_of_fault hf, rfl⟩

/-! ## The invariant -/

namespace State.Inv

variable {s t : State}

theorem with_commands (h : s.Inv) (cs : List Command) : State.Inv { s with commands := cs } :=
  ⟨h.memoryCanonical, h.ignoredFlagSet, h.faultNamesNull⟩

theorem fetch (h : s.Inv) : s.fetch.2.Inv := by
  obtain ⟨l, hl⟩ := fetch_frame s
  rw [hl]
  exact ⟨h.memoryCanonical, h.ignoredFlagSet, h.faultNamesNull⟩

end State.Inv

theorem faultConsistent_of_no_fault {s : State} (h : s.fault = none) : s.faultConsistent = true := by
  rw [faultConsistent, h]

theorem writesBU_iff {i : Instr} : writesBU i = true ↔ i = .plp ∨ i = .rti := by
  constructor
  · intro h
    cases i
    case plp => exact .inl rfl
    case rti => exact .inr rfl
    all_goals nomatch h
  · rintro (rfl | rfl) <;> rfl

/-- PLP and RTI force U; no other instruction writes it (10_state.md R34). -/
theorem exec_keeps_ignoredFlag {i : Instr} {s t : State} (hs : s.p.u = true) (h : exec i s = .next t) : t.p.u = true := by
  rcases (exec_changesOnly h).p.u with hw | hu
  · rcases writesBU_iff.mp hw with rfl | rfl
    · rw [exec_plp] at h
      obtain rfl := Host.Outcome.next.inj h
      simp [Flags.ofByte, maskU, maskB]
    · rw [exec_rti] at h
      obtain rfl := Host.Outcome.next.inj h
      simp [Flags.ofByte, maskU]
  · rw [hu, hs]

/-- An instruction of the core, run with FAULT clear, keeps the invariant: Null alone sets FAULT, and PC stays at the Null
byte it names. -/
theorem exec_keeps_inv {i : Instr} {s t : State} (hi : i.wellFormed s.cfg.stdExtras = true) (hf : s.fault = none)
    (hs : s.Inv) (h : exec i s = .next t) : t.Inv where
  memoryCanonical := (exec_changesOnly h).wf hs.memoryCanonical
  ignoredFlagSet := exec_keeps_ignoredFlag hs.ignoredFlagSet h
  faultNamesNull := by
    rcases (exec_changesOnly h).fault with ⟨op, rfl⟩ | hkept
    · obtain rfl := Host.Outcome.next.inj h
      have hop : isNullByte s.cfg.stdExtras op = true := hi
      simp [faultConsistent, raiseIllegalOpcode, hop]
    · exact faultConsistent_of_no_fault (hkept.trans hf)

theorem stepCommand_keeps_inv {s t : State} (hs : s.Inv) (h : stepCommand s = .next t) : t.Inv := by
  by_cases hf : s.fault = none
  · rw [stepCommand_of_no_fault hf] at h
    exact exec_keeps_inv (by simpa using fetch_wellFormed s) (by simpa using hf) hs.fetch h
  · rw [stepCommand_of_fault hf] at h
    obtain rfl := Host.Outcome.next.inj h
    exact hs

theorem interrupt_keeps_inv {s t : State} {target : Word} (hs : s.Inv) (h : exec (.jmi target) s = .next t) : t.Inv := by
  by_cases hf : s.fault = none
  · exact exec_keeps_inv rfl hf hs h
  · rw [exec_jmi_of_fault target hf] at h
    obtain rfl := Host.Outcome.next.inj h
    exact hs

/-- Reset sets U and clears FAULT, and leaves RAM (70_reset_and_hazards.md R172). -/
theorem resetSequence_keeps_inv {s : State} (hs : s.Inv) : s.resetSequence.Inv :=
  ⟨hs.memoryCanonical, rfl, rfl⟩

end Sys2Proof.Machine

namespace Sys2Proof.Proofs

open Machine Claims

/-- Settles O10, by the driver's command: a step runs an instruction, ignores the command under FAULT, or resets. -/
theorem stepKeepsInvariant : Obligations.StepKeepsInvariant := by
  intro s t hs h
  rcases hc : s.commands with _ | ⟨_ | _ | target, cs⟩
  · exact stepCommand_keeps_inv hs (step_of_no_command hc ▸ h)
  · exact stepCommand_keeps_inv (hs.with_commands cs) (step_of_step hc ▸ h)
  · rw [step_of_reset hc] at h
    obtain rfl := Host.Outcome.next.inj h
    exact resetSequence_keeps_inv (hs.with_commands cs)
  · exact interrupt_keeps_inv (hs.with_commands cs) (step_of_interrupt hc ▸ h)

/-- Settles O8: `Step` and `Interrupt` are ignored under FAULT, and the reset sequence clears it. -/
theorem faultedCoreIgnoresStepAndInterrupt : Obligations.FaultedCoreIgnoresStepAndInterrupt := by
  intro s hf
  refine ⟨fun hc => ?_, fun c cs hne hc => ?_, fun cs hc => ⟨_, step_of_reset hc, rfl⟩⟩
  · rw [step_of_no_command hc, stepCommand_of_fault hf]
  · cases c with
    | step => exact (step_of_step hc).trans (stepCommand_of_fault hf)
    | reset => exact absurd rfl hne
    | interrupt target => exact (step_of_interrupt hc).trans (exec_jmi_of_fault target hf)

/-- Settles O13: a step that is no `Reset` only adds to CYC. -/
theorem cyclesNeverDecrease : Obligations.CyclesNeverDecrease :=
  fun _ _ hr h => (step_extends hr h).cyc

/-- Settles O54: what every instruction may change, read off for A, X and Y. -/
theorem registerWritersAreTheListedOnes : Obligations.RegisterWritersAreTheListedOnes := by
  intro i s t h
  have changes := exec_changesOnly h
  exact ⟨kept_of_not_writer changes.a, kept_of_not_writer changes.x, kept_of_not_writer changes.y⟩

/-- Settles O55: what every instruction may change, read off flag by flag. -/
theorem flagWritersAreTheListedOnes : Obligations.FlagWritersAreTheListedOnes := by
  intro i s t h
  have changes := (exec_changesOnly h).p
  exact ⟨kept_of_not_writer changes.c,
    fun hw => ⟨kept_of_not_writer changes.z hw, kept_of_not_writer changes.n hw⟩,
    kept_of_not_writer changes.i, kept_of_not_writer changes.d,
    fun hw => ⟨kept_of_not_writer changes.b hw, kept_of_not_writer changes.u hw⟩,
    kept_of_not_writer changes.v⟩

/-- Settles O41: the Decimal overlay is unseen by all but the pushes of P. -/
theorem decimalFlagHasNoEffect : Obligations.DecimalFlagHasNoEffect := by
  intro i s b hi
  obtain ⟨f, hf, blind⟩ := exec_blind (o := .decimal b) hi
  exact ⟨f s, f (withD s b), hf _, hf _, blind s⟩

/-- Settles O42, by the driver's command: a `Step` that pushes no P is blind to I, `Reset` overwrites it, and under FAULT
`Interrupt` does nothing. -/
theorem coreNeverConsultsInterruptDisable : Obligations.CoreNeverConsultsInterruptDisable := by
  intro s b hp
  rcases hc : s.commands with _ | ⟨_ | _ | target, cs⟩
  · rw [step_of_no_command hc, step_of_no_command (s := withI s b) hc]
    exact stepCommand_withI fun hf hi => hp ⟨hf, by rw [hc]; exact hi⟩
  · rw [step_of_step hc, step_of_step (s := withI s b) hc]
    refine stepCommand_withI (s := { s with commands := cs }) fun hf hi => hp ⟨hf, ?_⟩
    rw [hc]
    rwa [fetch_fst_with_commands] at hi
  · rw [step_of_reset hc, step_of_reset (s := withI s b) hc]
    exact ⟨_, _, rfl, rfl, rfl⟩
  · rw [step_of_interrupt hc, step_of_interrupt (s := withI s b) hc]
    have hf : s.fault ≠ none := fun hf => hp ⟨hf, by rw [hc]; trivial⟩
    exact ⟨_, _, exec_jmi_of_fault target hf, exec_jmi_of_fault target hf, rfl⟩

/-- Settles O24: the lists give who writes S, the S overlay who reads it. -/
theorem stackPointerUse : Obligations.StackPointerUse := by
  refine ⟨State.stackAddr_toNat, fun i s t h => kept_of_not_writer (exec_changesOnly h).sp, fun s t h hne => ?_,
    fun i s q hw hi => ?_, exec_txs_with_sp⟩
  · rcases hc : s.commands with _ | ⟨_ | _ | target, cs⟩
    · exact .inr (.inr (stepCommand_sp_writer (step_of_no_command hc ▸ h) hne))
    · rw [step_of_step hc] at h
      have hw := stepCommand_sp_writer h hne
      rw [fetch_fst_with_commands] at hw
      exact .inr (.inr hw)
    · exact .inl ⟨cs, rfl⟩
    · exact .inr (.inl ⟨target, cs, rfl⟩)
  · obtain ⟨f, hf, blind⟩ := exec_blind (o := .sp q) ⟨hw, hi⟩
    have hsp : (f { s with sp := q }).sp = q := kept_of_not_writer (exec_changesOnly (hf _)).sp hw
    refine ⟨f s, hf s, (hf _).trans (congrArg Host.Outcome.next ?_)⟩
    exact (with_sp_of_eq hsp).symm.trans (blind s)

end Sys2Proof.Proofs
end

/-! The memory port and the stack (20_memory.md): the accesses of every instruction in order, who writes memory, and what
pushes and pops leave and give. -/

namespace Sys2Proof.Machine

open Claims

/-! ## The accesses of the resolution -/

theorem resolutionReads_absolute (s : State) {i : Instr} {ow : Word} (h : i.operand = .absolute ow) (ea : Word) :
    resolutionReads s i ea = if readsAbsolute i then [.read ea] else [] := by
  unfold resolutionReads
  rw [h]
  cases i <;> rfl

namespace State

/-- Preparation adds the resolution's reads to the history (30_encoding.md R71 to R83). -/
theorem prepare_bus (s : State) (i : Instr) :
    (s.prepare i).2.bus = resolutionReads s i (s.prepare i).1.ea ++ s.bus := by
  cases ho : i.operand with
  | absolute ow =>
    rw [resolutionReads_absolute s ho, prepare, ho, resolve]
    split <;> rfl
  | absoluteX ow | absoluteY ow =>
    unfold resolutionReads
    rw [prepare, ho, resolve, readIndexed_eq]
    rfl
  | indexedIndirectX ol =>
    unfold resolutionReads
    rw [prepare, ho, resolve, readZP16_eq]
    rfl
  | indirectIndexedY ol =>
    unfold resolutionReads
    rw [prepare, ho, resolve, readZP16_eq, readPair_eq, readIndexed_eq]
    rfl
  | _ =>
    unfold resolutionReads
    rw [prepare, ho]
    rfl

theorem prepared_bus (s : State) (i : Instr) :
    (s.prepared i).bus = resolutionReads s i (s.prepare i).1.ea ++ s.bus := s.prepare_bus i

end State

open State

/-! ## The accesses of the stack's users (20_memory.md R60, R61) -/

theorem stackAddr_sub_zero (q : Byte) : stackAddr (q - 0) = stackAddr q := congrArg stackAddr (BitVec.sub_zero q)

section

variable (s t : State)

@[simp] theorem executeAccesses_pha : executeAccesses s t .pha = [.write (stackAddr s.sp) s.a] := by
  show [Access.write (stackAddr (s.sp - 0)) _] = _
  rw [stackAddr_sub_zero]

@[simp] theorem executeAccesses_php : executeAccesses s t .php = [.write (stackAddr s.sp) (s.p.toByte ||| maskB)] := by
  show [Access.write (stackAddr (s.sp - 0)) _] = _
  rw [stackAddr_sub_zero]
  rfl

@[simp] theorem executeAccesses_pla : executeAccesses s t .pla = [.read (stackAddr (s.sp + 1))] := rfl

@[simp] theorem executeAccesses_plp : executeAccesses s t .plp = [.read (stackAddr (s.sp + 1))] := rfl

@[simp] theorem executeAccesses_jsr (target : Word) :
    executeAccesses s t (.jsr target) =
      [.write (stackAddr (s.sp - 1)) (loByte (s.pc + 2)), .write (stackAddr s.sp) (hiByte (s.pc + 2))] := by
  show [_, Access.write (stackAddr (s.sp - 0)) _] = _
  rw [stackAddr_sub_zero]

@[simp] theorem executeAccesses_rts :
    executeAccesses s t .rts = [.read (stackAddr (s.sp + 2)), .read (stackAddr (s.sp + 1))] := rfl

@[simp] theorem executeAccesses_rti :
    executeAccesses s t .rti =
      [.read (stackAddr (s.sp + 3)), .read (stackAddr (s.sp + 2)), .read (stackAddr (s.sp + 1))] := rfl

@[simp] theorem executeAccesses_brk :
    executeAccesses s t .brk =
      [.read (irqBrkVector + 1), .read irqBrkVector, .write (stackAddr (s.sp - 2)) (s.p.toByte ||| maskB),
       .write (stackAddr (s.sp - 1)) (loByte (s.pc + 2)), .write (stackAddr s.sp) (hiByte (s.pc + 2))] := by
  show [_, _, _, _, Access.write (stackAddr (s.sp - 0)) _] = _
  rw [stackAddr_sub_zero]
  rfl

@[simp] theorem executeAccesses_jmi (target : Word) :
    executeAccesses s t (.jmi target) =
      [.write (stackAddr (s.sp - 2)) s.p.toByte, .write (stackAddr (s.sp - 1)) (loByte s.pc),
       .write (stackAddr s.sp) (hiByte s.pc)] := by
  show [_, _, Access.write (stackAddr (s.sp - 0)) _] = _
  rw [stackAddr_sub_zero]

end

/-- The execute phase starts from the prepared state, keeps LATCH and adds its own accesses (30_encoding.md R86). -/
theorem exec_accesses {i : Instr} (s : State) (hi : isResolved i = true) :
    ∃ t, exec i s = .next t ∧ t.latch = (s.prepare i).1 ∧ t.bus = executeAccesses s t i ++ (s.prepared i).bus := by
  cases i
  case null | jmi => nomatch hi
  -- The stores and the read-modify-writes write at EA.
  case sta m => exact ⟨_, exec_sta m s, rfl, rfl⟩
  case stx m => exact ⟨_, exec_stx m s, rfl, rfl⟩
  case sty m => exact ⟨_, exec_sty m s, rfl, rfl⟩
  case inc m => exact ⟨_, exec_inc m s, rfl, rfl⟩
  case dec m => exact ⟨_, exec_dec m s, rfl, rfl⟩
  case asl m => cases m <;> exact ⟨_, exec_asl _ s, rfl, rfl⟩
  case lsr m => cases m <;> exact ⟨_, exec_lsr _ s, rfl, rfl⟩
  case rol m => cases m <;> exact ⟨_, exec_rol _ s, rfl, rfl⟩
  case ror m => cases m <;> exact ⟨_, exec_ror _ s, rfl, rfl⟩
  -- The users of the stack push and pop; BRK reads its vector too.
  case pha => exact ⟨_, exec_pha s, rfl, by simp⟩
  case php => exact ⟨_, exec_php s, rfl, by simp⟩
  case jsr target => exact ⟨_, exec_jsr target s, rfl, by simp⟩
  case brk =>
    refine ⟨_, exec_brk s, ?_, ?_⟩
    · simp only [softwareTrap_eq, saveContext_eq]
      rfl
    · simp only [softwareTrap_eq, saveContext_eq, executeAccesses_brk]
      rfl
  case pla => exact ⟨_, exec_pla s, rfl, rfl⟩
  case plp => exact ⟨_, exec_plp s, rfl, rfl⟩
  case rts => exact ⟨_, exec_rts s, rfl, rfl⟩
  case rti => exact ⟨_, exec_rti s, rfl, rfl⟩
  -- The others make no access of their own.
  all_goals exact ⟨_, rfl, rfl, rfl⟩

theorem exec_resolved_bus {i : Instr} {s t : State} (hi : isResolved i = true) (h : exec i s = .next t) :
    t.bus = executeAccesses s t i ++ resolutionReads s i t.latch.ea ++ s.bus := by
  obtain ⟨u, hu, hlatch, hbus⟩ := exec_accesses s hi
  obtain rfl := Host.Outcome.next.inj (h.symm.trans hu)
  rw [hbus, prepared_bus, hlatch, List.append_assoc]

/-- JMI with no fault pushes PC and P, and resolves nothing (49_control.md R141). -/
theorem exec_jmi_bus (target : Word) {s t : State} (hf : s.fault = none) (h : exec (.jmi target) s = .next t) :
    t.bus = executeAccesses s t (.jmi target) ++ s.bus := by
  rw [exec_jmi_entry target hf] at h
  obtain rfl := Host.Outcome.next.inj h
  simp [saveContext_eq]

/-- The accesses of every instruction, JMI's while no fault is set: those of its resolution, if it has one, then those of
its execute phase. -/
theorem exec_bus {i : Instr} {s t : State} (hf : s.fault = none ∨ ∀ target, i ≠ .jmi target) (h : exec i s = .next t) :
    t.bus = executeAccesses s t i ++ (if isResolved i then resolutionReads s i t.latch.ea else []) ++ s.bus := by
  cases hi : isResolved i with
  | true => exact exec_resolved_bus hi h
  | false =>
    cases i
    case jmi target => simpa using exec_jmi_bus target (hf.resolve_right fun hne => hne target rfl) h
    case null op =>
      obtain rfl := Host.Outcome.next.inj h
      rfl
    all_goals nomatch hi

/-! ## Who writes memory (20_memory.md R49) -/

theorem write_not_mem_resolutionReads (s : State) (i : Instr) (ea addr : Word) (v : Byte) :
    .write addr v ∉ resolutionReads s i ea := by
  cases ho : i.operand with
  | absolute ow =>
    rw [resolutionReads_absolute s ho]
    split <;> simp
  | _ =>
    unfold resolutionReads
    rw [ho]
    simp

/-- An instruction off the list makes no write in its execute phase. -/
theorem write_not_mem_executeAccesses {i : Instr} (hw : writesMemory i = false) (s t : State) (addr : Word) (v : Byte) :
    .write addr v ∉ executeAccesses s t i := by
  cases i
  case asl m | lsr m | rol m | ror m =>
    obtain rfl : m = .accumulator := not_not.mp (of_decide_eq_false hw)
    exact List.not_mem_nil
  case sta | stx | sty | inc | dec | pha | php | jsr | jmi | brk => nomatch hw
  case pla | plp | rts | rti => simp
  all_goals exact List.not_mem_nil

/-- An instruction off the list leaves RAM as it was. -/
theorem exec_mem {i : Instr} {s t : State} (hw : writesMemory i = false) (h : exec i s = .next t) : t.mem = s.mem := by
  cases i <;> obtain rfl := Host.Outcome.next.inj h
  case asl m | lsr m | rol m | ror m =>
    obtain rfl : m = .accumulator := not_not.mp (of_decide_eq_false hw)
    exact s.prepare_mem _
  case sta | stx | sty | inc | dec | pha | php | jsr | jmi | brk => nomatch hw
  case null => rfl
  all_goals exact s.prepare_mem _

/-! ## The stack page (20_memory.md R62) -/

/-- The access is within 0x0100 to 0x01FF. -/
def InStackPage : Access → Prop
  | .read addr | .write addr _ => 0x100 ≤ addr.toNat ∧ addr.toNat ≤ 0x1FF

theorem stackAddr_in_page (q : Byte) : 0x100 ≤ (stackAddr q).toNat ∧ (stackAddr q).toNat ≤ 0x1FF := by
  have := q.isLt
  rw [stackAddr_toNat]
  omega

theorem executeAccesses_in_page {i : Instr} (hS : writesS i = true) (hi : i ≠ .txs) (s t : State) :
    ∀ q ∈ executeAccesses s t i, InStackPage q ∨ i = .brk ∧ ∃ addr, q = .read addr := by
  cases i
  case txs => exact absurd rfl hi
  case pha | php | pla | plp | jsr | rts | rti | jmi | brk => simp [InStackPage, stackAddr_in_page]
  all_goals nomatch hS

theorem resolutionReads_of_stack_user {i : Instr} (hS : writesS i = true) (s : State) (ea : Word) :
    resolutionReads s i ea = [] := by
  cases i
  case pha | php | pla | plp | jsr | rts | rti | jmi | brk | txs => rfl
  all_goals nomatch hS

/-! ## Push and Pop (20_memory.md R60, R61, R63) -/

theorem stackAddr_eq_ofNat (q : Byte) : stackAddr q = BitVec.ofNat 16 (0x100 + q.toNat) := by
  rw [← State.stackAddr_toNat, BitVec.ofNat_toNat, BitVec.setWidth_eq]

namespace State

theorem ramHolds_push {s : State} (hs : s.mem.wf = true) (v : Byte) : ramHolds s (s.push v) (stackAddr s.sp) v := by
  intro ho
  rw [read_push hs, if_pos ⟨ho, rfl⟩]

theorem ramSameOutside_push {s : State} (hs : s.mem.wf = true) (v : Byte) :
    ramSameOutside s (s.push v) [stackAddr s.sp] := by
  intro b hb
  have hne : b.toNat ≠ (stackAddr s.sp).toNat := fun h => hb (List.mem_singleton.mpr (BitVec.eq_of_toNat_eq h))
  rw [read_push hs, if_neg fun h => hne h.2]

/-! ### The bytes above S -/

/-- The byte of RAM `k` places above S: what the `k`-th Pop gives where the stack page is plain RAM. -/
def byteAbove (s : State) (k : Nat) : Byte := s.mem.read (stackAddr (s.sp + BitVec.ofNat 8 k)).toNat

variable {s : State}

theorem pop_fst (hp : plainStack s) : s.pop.1 = s.byteAbove 1 := by
  rw [pop_eq, peek_with_sp, peek_plain (hp _)]
  rfl

theorem plainStack_pop (hp : plainStack s) : plainStack s.pop.2 := hp

theorem plainStack_push (hp : plainStack s) (v : Byte) : plainStack (s.push v) :=
  fun q => (isOpaque_push s v _).trans (hp q)

theorem byteAbove_pop (s : State) (k : Nat) : s.pop.2.byteAbove k = s.byteAbove (k + 1) := by
  have hsp : s.sp + 1 + BitVec.ofNat 8 k = s.sp + BitVec.ofNat 8 (k + 1) := by bv_omega
  rw [byteAbove, byteAbove, pop_mem, pop_sp, hsp]

/-- Above a byte just pushed lie the bytes that were there before, up to the 255 that the stack page has room for. -/
theorem byteAbove_push (hs : s.mem.wf = true) (v : Byte) {k : Nat} (hk : 0 < k) (hk' : k < 256) :
    (s.push v).byteAbove (k + 1) = s.byteAbove k := by
  have hsp : s.sp - 1 + BitVec.ofNat 8 (k + 1) = s.sp + BitVec.ofNat 8 k := by bv_omega
  have hne : (stackAddr (s.sp + BitVec.ofNat 8 k)).toNat ≠ (stackAddr s.sp).toNat := by
    rw [stackAddr_toNat, stackAddr_toNat]
    bv_omega
  rw [byteAbove, byteAbove, push_sp, hsp, read_push hs, if_neg fun h => hne h.2]

theorem byteAbove_push_one (hs : s.mem.wf = true) (hp : plainStack s) (v : Byte) : (s.push v).byteAbove 1 = v := by
  have hsp : s.sp - 1 + BitVec.ofNat 8 1 = s.sp := BitVec.sub_add_cancel _ _
  rw [byteAbove, push_sp, hsp, ramHolds_push hs v (hp _)]

/-! ### Many pops and many pushes -/

theorem popMany_fst (n : Nat) (hp : plainStack s) :
    (popMany n s).1 = (List.range n).map fun k => s.byteAbove (k + 1) := by
  induction n generalizing s with
  | zero => rfl
  | succ n ih =>
    rw [popMany, ih (plainStack_pop hp), pop_fst hp, List.range_succ_eq_map, List.map_cons, List.map_map]
    simp only [byteAbove_pop]
    rfl

theorem popMany_sp (n : Nat) (s : State) : (popMany n s).2.sp = s.sp + BitVec.ofNat 8 n := by
  induction n generalizing s with
  | zero => exact (BitVec.add_zero _).symm
  | succ n ih =>
    rw [popMany, ih, pop_sp]
    bv_omega

theorem wf_foldl_push (hs : s.mem.wf = true) (vs : List Byte) : (vs.foldl push s).mem.wf = true :=
  List.foldlRecOn (motive := fun t => t.mem.wf = true) vs push hs fun _ ht v _ => wf_push ht v

theorem plainStack_foldl_push (hp : plainStack s) (vs : List Byte) : plainStack (vs.foldl push s) :=
  List.foldlRecOn vs push hp fun _ ht v _ => plainStack_push ht v

theorem foldl_push_sp (vs : List Byte) (s : State) : (vs.foldl push s).sp = s.sp - BitVec.ofNat 8 vs.length := by
  induction vs generalizing s with
  | nil => exact (BitVec.sub_zero _).symm
  | cons v vs ih =>
    rw [List.foldl_cons, ih, push_sp, List.length_cons]
    bv_omega

/-- The bytes above S after the pushes are those pushed, the last first. -/
theorem bytesAbove_foldl_push (hs : s.mem.wf = true) (hp : plainStack s) (vs : List Byte) (hn : vs.length ≤ 256) :
    ((List.range vs.length).map fun k => (vs.foldl push s).byteAbove (k + 1)) = vs.reverse := by
  induction vs using List.reverseRecOn with
  | nil => rfl
  | append_singleton vs v ih =>
    rw [List.length_append, List.length_singleton] at hn ⊢
    rw [List.foldl_concat, List.reverse_concat, List.range_succ_eq_map, List.map_cons, List.map_map,
      byteAbove_push_one (wf_foldl_push hs vs) (plainStack_foldl_push hp vs), ← ih (by omega)]
    congr 1
    refine List.map_congr_left fun k hk => byteAbove_push (wf_foldl_push hs vs) v (Nat.succ_pos k) ?_
    have := List.mem_range.mp hk
    omega

end State

end Sys2Proof.Machine

namespace Sys2Proof.Proofs

open Machine Claims

/-- Settles O15: the accesses of an instruction, run with no fault. -/
theorem accessesOfEveryInstruction : Obligations.AccessesOfEveryInstruction := by
  intro i s hf
  obtain ⟨t, h⟩ := exec_isNext i s
  exact ⟨t, h, exec_bus (.inl hf) h⟩

/-- Settles O56: an instruction off the list makes no write, in its resolution or after it. -/
theorem memoryWritersAreTheListedOnes : Obligations.MemoryWritersAreTheListedOnes := by
  intro i s t h hw
  refine ⟨exec_mem hw h, fun addr v l hl hmem => ?_⟩
  have hbus := exec_bus (.inr fun target hi => by subst hi; nomatch hw) h
  rw [List.append_cancel_right (hl.symm.trans hbus)] at hmem
  rcases List.mem_append.mp hmem with hexec | hres
  · exact write_not_mem_executeAccesses hw s t addr v hexec
  · split at hres
    · exact write_not_mem_resolutionReads s i _ addr v hres
    · nomatch hres

/-- Settles O53: the users of the stack resolve without a read, and what their execute phase adds is in the page but for
BRK's vector reads; JMI under FAULT adds nothing. -/
theorem stackAccessesStayInPage : Obligations.StackAccessesStayInPage := by
  intro i s t hS hi h
  by_cases hruns : s.fault = none ∨ ∀ target, i ≠ .jmi target
  · have hbus := exec_bus hruns h
    rw [resolutionReads_of_stack_user hS, ite_self, List.append_nil] at hbus
    refine ⟨_, hbus, fun addr v hq => ?_, fun addr hq => ?_⟩
    · simpa [InStackPage] using executeAccesses_in_page hS hi s t _ hq
    · exact (executeAccesses_in_page hS hi s t _ hq).imp_right And.left
  · obtain ⟨hf, hjmi⟩ := not_or.mp hruns
    obtain ⟨target, rfl⟩ := not_forall_not.mp hjmi
    obtain rfl := Host.Outcome.next.inj ((exec_jmi_of_fault target hf).symm.trans h)
    exact ⟨[], rfl, by simp, by simp⟩

/-- Settles O23: the equations of Push and Pop, S and its addresses as numbers. -/
theorem stackPrimitiveResults : Obligations.StackPrimitiveResults := by
  refine ⟨fun s v hs => ?_, fun s => ?_⟩
  · have hsp : s.sp - 1 = BitVec.ofNat 8 (s.sp.toNat + 255) := by bv_omega
    simp only [← stackAddr_eq_ofNat, ← hsp]
    refine ⟨?_, State.ramHolds_push hs v, State.ramSameOutside_push hs v⟩
    simp only [State.push_eq]
  · have hsp : s.sp + 1 = BitVec.ofNat 8 ((s.sp.toNat + 1) % 256) := by bv_omega
    have haddr : stackAddr (s.sp + 1) = BitVec.ofNat 16 (0x100 + (s.sp.toNat + 1) % 256) := stackAddr_eq_ofNat _
    simp only [← haddr, ← hsp]
    exact ⟨rfl, rfl⟩

/-- Settles O52: the pops give the bytes above S, which after the pushes are those pushed, the last first. -/
theorem pushManyPopManyReverses : Obligations.PushManyPopManyReverses := by
  intro vs s hs hp hn
  constructor
  · rw [State.popMany_fst _ (State.plainStack_foldl_push hp vs), State.bytesAbove_foldl_push hs hp vs hn]
  · rw [State.popMany_sp, State.foldl_push_sp, BitVec.sub_add_cancel]

end Sys2Proof.Proofs

/-! Encoding, fetch and addressing modes (30_encoding.md): encoder and decoder undo each other, the fetch reads what the
decoder takes, and each mode resolves to the address and value of its rule, with the accesses of its rule. -/

namespace Sys2Proof

/-! ## Operands and their bytes (30_encoding.md R64) -/

theorem length_bytes (o : Operand) : o.bytes.length + 1 = o.mode.length := by
  cases o <;> rfl

/-- An operand is made again of its own bytes. -/
theorem ofBytes_bytes (o : Operand) : Operand.ofBytes o.mode (o.bytes.getD 0 0) (o.bytes.getD 1 0) = o := by
  cases o <;> simp [Operand.mode, Operand.bytes, Operand.ofBytes]

/-- As many bytes as a mode takes are the bytes of the operand it makes of them. -/
theorem bytes_ofBytes {m : Mode} {taken : List Byte} (h : taken.length + 1 = m.length) :
    (Operand.ofBytes m (taken.getD 0 0) (taken.getD 1 0)).bytes = taken := by
  cases m
  case implied | accumulator =>
    obtain rfl := List.length_eq_zero_iff.mp (Nat.succ.inj h)
    rfl
  case absolute | absoluteX | absoluteY | indirect =>
    obtain ⟨ol, oh, rfl⟩ := List.length_eq_two.mp (Nat.succ.inj h)
    simp [Operand.ofBytes, Operand.bytes]
  all_goals
    obtain ⟨ol, rfl⟩ := List.length_eq_one_iff.mp (Nat.succ.inj h)
    rfl

/-! ## The grid (30_encoding.md R67, R68) -/

theorem instrOf_of_pairing {x : Bool} {op : Byte} {m : Mode} {f : Operand → Instr} (h : pairingOf x op = some (m, f))
    (ol oh : Byte) : instrOf x op ol oh = f (Operand.ofBytes m ol oh) := by
  rw [instrOf, h]

theorem instrOf_of_isNullByte {x : Bool} {op : Byte} (h : isNullByte x op = true) (ol oh : Byte) :
    instrOf x op ol oh = .null op := by
  rw [← pairingOf_isNone, Option.isNone_iff_eq_none] at h
  rw [instrOf, h]

/-- The decoder gives an instruction the operand that the byte's mode makes of the operand bytes. -/
theorem operand_instrOf (x : Bool) (op ol oh : Byte) :
    (instrOf x op ol oh).operand = Operand.ofBytes (modeOf x op) ol oh := by
  refine forall_byte (P := fun b => (instrOf x b ol oh).operand = Operand.ofBytes (modeOf x b) ol oh)
    (fun n hn => ?_) op
  interval_cases n
  all_goals (cases x <;> rfl)

/-- Where the grid has `f` at every mode and byte of an Encoding line, it has it at the byte the encoder looks up. -/
theorem pairingOf_of_lookup {x : Bool} {f : Operand → Instr} {line : List (Mode × Byte)} {m : Mode} {op : Byte}
    (h : line.lookup m = some op) (hline : line.Forall fun e => pairingOf x e.2 = some (e.1, f)) :
    pairingOf x op = some (m, f) := by
  obtain ⟨l₁, l₂, rfl, -⟩ := List.lookup_eq_some_iff.mp h
  exact List.forall_iff_forall_mem.mp hline (m, op) (by simp)

/-- The encoder's byte of an instruction of the core is where the grid has the instruction, at its mode. -/
theorem pairingOf_opcodeOf {x : Bool} {i : Instr} {op : Byte} (hw : i.wellFormed x = true) (hn : ∀ b, i ≠ .null b)
    (h : opcodeOf i = some op) : ∃ f, pairingOf x op = some (i.operand.mode, f) ∧ f i.operand = i := by
  cases i
  case null b => exact absurd rfl (hn b)
  case jmi => nomatch h
  case inx | iny | dex | dey | tax | txa | tay | tya | tsx | txs | sec | clc | clv | sei | sed | cld | pha | pla | php
    | plp | jsr | rts | rti | bpl | bmi | bvc | bvs | bcc | bcs | bne | beq =>
    obtain rfl := Option.some.inj h
    exact ⟨_, rfl, rfl⟩
  case cli | brk | nop =>
    obtain rfl : x = true := hw
    obtain rfl := Option.some.inj h
    exact ⟨_, rfl, rfl⟩
  -- The instructions with a line: the grid has each of its modes and bytes.
  all_goals exact ⟨_, pairingOf_of_lookup h (by and_intros <;> rfl), rfl⟩

/-- The encoder's byte and operand bytes of an instruction of the core are decoded to it. -/
theorem instrOf_opcodeOf {x : Bool} {i : Instr} {op : Byte} (hw : i.wellFormed x = true) (h : opcodeOf i = some op) :
    instrOf x op (i.operand.bytes.getD 0 0) (i.operand.bytes.getD 1 0) = i := by
  by_cases hn : ∃ b, i = .null b
  · obtain ⟨b, rfl⟩ := hn
    obtain rfl := Option.some.inj h
    exact instrOf_of_isNullByte hw _ _
  · obtain ⟨f, hp, hf⟩ := pairingOf_opcodeOf hw (fun b hb => hn ⟨b, hb⟩) h
    rw [instrOf_of_pairing hp, ofBytes_bytes, hf]

/-! ## What `decode` takes and leaves (30_encoding.md R65, R84) -/

/-- An opcode byte calls for at most two operand bytes. -/
theorem taken_cases {x : Bool} {op : Byte} {taken : List Byte} (h : taken.length + 1 = lengthOf x op) :
    taken = [] ∨ (∃ ol, taken = [ol]) ∨ ∃ ol oh, taken = [ol, oh] := by
  rw [← List.length_eq_zero_iff, ← List.length_eq_one_iff, ← List.length_eq_two]
  have := lengthOf_cases x op
  omega

/-- An opcode byte and as many operand bytes as it calls for are taken, and the rest is left. -/
theorem decode_taken {x : Bool} {op : Byte} {taken : List Byte} (h : taken.length + 1 = lengthOf x op)
    (rest : List Byte) :
    decode x (op :: (taken ++ rest)) = .ok (instrOf x op (taken.getD 0 0) (taken.getD 1 0), rest) := by
  obtain rfl | ⟨ol, rfl⟩ | ⟨ol, oh, rfl⟩ := taken_cases h <;> simp [decode, ← h]

/-- Bytes that decode are an opcode byte, the operand bytes it calls for, and the rest. -/
theorem taken_of_decode {x : Bool} {bytes rest : List Byte} {i : Instr} (h : decode x bytes = .ok (i, rest)) :
    ∃ op taken, bytes = op :: (taken ++ rest) ∧ taken.length + 1 = lengthOf x op ∧
      i = instrOf x op (taken.getD 0 0) (taken.getD 1 0) := by
  unfold decode at h
  split at h
  next => nomatch h
  next op tail =>
    split at h
    next hlen =>
      cases h
      exact ⟨op, [], rfl, hlen.symm, rfl⟩
    next ol _ hlen =>
      cases h
      exact ⟨op, [ol], rfl, hlen.symm, rfl⟩
    next ol oh _ hlen =>
      cases h
      exact ⟨op, [ol, oh], rfl, hlen.symm, rfl⟩
    next => nomatch h

theorem wellFormed_of_decode {x : Bool} {bytes rest : List Byte} {i : Instr} (h : decode x bytes = .ok (i, rest)) :
    i.wellFormed x = true := by
  obtain ⟨op, taken, -, -, rfl⟩ := taken_of_decode h
  exact instrOf_wellFormed _ _ _ _

end Sys2Proof

namespace Sys2Proof.Machine

open Claims

/-! ## The fetch (30_encoding.md R84, R86) -/

@[simp] theorem fetchReads_zero (pc : Word) : fetchReads pc 0 = [] := rfl

@[simp] theorem fetchReads_succ (pc : Word) (n : Nat) :
    fetchReads pc (n + 1) = .read (pc + BitVec.ofNat 16 n) :: fetchReads pc n := by
  simp [fetchReads, List.range_succ]

/-- The fetch reads the bytes that decode, and no other. -/
theorem fetch_of_decode {s : State} {i : Instr} {rest : List Byte}
    (h : decode s.cfg.stdExtras
      [answer s s.bus s.pc, answer s (fetchReads s.pc 1 ++ s.bus) (s.pc + 1),
       answer s (fetchReads s.pc 2 ++ s.bus) (s.pc + 2)] = .ok (i, rest)) :
    s.fetch = (i, { s with bus := fetchReads s.pc i.length ++ s.bus }) := by
  obtain ⟨op, taken, hbytes, hlen, rfl⟩ := taken_of_decode h
  obtain ⟨rfl, htail⟩ := List.cons.inj hbytes
  rw [instrOf_length, ← hlen]
  have hop : s.peek s.pc = answer s s.bus s.pc := rfl
  rw [State.fetch_eq, hop]
  dsimp only
  rw [← hlen]
  obtain rfl | ⟨ol, rfl⟩ | ⟨ol, oh, rfl⟩ := taken_cases hlen
  · simp [State.fetchOperand]
  · obtain ⟨rfl, -⟩ := List.cons.inj htail
    simp [State.fetchOperand, State.memRead_eq, answer]
  · obtain ⟨rfl, hlast⟩ := List.cons.inj htail
    obtain ⟨rfl, -⟩ := List.cons.inj hlast
    simp [State.fetchOperand, State.memRead_eq, answer]

/-! ## The addressing modes (30_encoding.md R71 to R83) -/

theorem toNat_zext16 (b : Byte) : (zext16 b).toNat = b.toNat := BitVec.toNat_setWidth_of_le (by decide)

theorem toNat_sext16 (b : Byte) : ((sext16 b).toNat : Int) = b.toInt % 65536 := by
  show ((BitVec.ofInt 16 b.toInt).toNat : Int) = _
  rw [BitVec.toNat_ofInt]
  exact Int.toNat_of_nonneg (Int.emod_nonneg _ (by decide))

/-- Preparation resolves to `r`, and adds the accesses `l` to the history. -/
structure State.ResolvesTo (s : State) (i : Instr) (r : Latch) (l : List Access) : Prop where
  latch : (s.prepare i).1 = r
  bus : (s.prepare i).2.bus = l ++ s.bus

namespace State

/-- Preparation resolves to `ea` and the byte read there, and makes no other access. -/
def ReadsValAt (s : State) (i : Instr) (ea : Word) : Prop := s.ResolvesTo i ⟨ea, answer s s.bus ea⟩ [.read ea]

section

variable {s : State} {i : Instr} {ol : Byte} {ow : Word}

theorem resolvesTo_implied (h : i.operand = .implied) : s.ResolvesTo i ⟨0, 0⟩ [] := by
  constructor <;> (rw [prepare, h]; rfl)

theorem resolvesTo_accumulator (h : i.operand = .accumulator) : s.ResolvesTo i ⟨zext16 s.a, s.a⟩ [] := by
  constructor <;> (rw [prepare, h]; rfl)

theorem resolvesTo_immediate (h : i.operand = .immediate ol) : s.ResolvesTo i ⟨zext16 ol, ol⟩ [] := by
  constructor <;> (rw [prepare, h]; rfl)

theorem resolvesTo_relative (h : i.operand = .relative ol) : s.ResolvesTo i ⟨s.pc + sext16 ol + 2, 0⟩ [] := by
  constructor <;> (rw [prepare, h]; rfl)

theorem prepare_cyc_relative (h : i.operand = .relative ol) : (s.prepare i).2.cyc = s.cyc + s.baseCyclesOf i := by
  rw [prepare, h]
  rfl

theorem prepare_absolute (h : i.operand = .absolute ow) :
    (s.prepare i).1 = ⟨ow, if readsAbsolute i then answer s s.bus ow else 0⟩ := by
  rw [prepare, h, resolve]
  split <;> rfl

theorem resolvesTo_indirect (h : i.operand = .indirect ow) :
    s.ResolvesTo i ⟨joinBytes (answer s (.read ow :: s.bus) (pointerHighAddr ow)) (answer s s.bus ow), 0⟩
      [.read (pointerHighAddr ow), .read ow] := by
  constructor <;> (rw [prepare, h]; rfl)

theorem prepare_indexedIndirectX (h : i.operand = .indexedIndirectX ol) :
    (s.prepare i).1 = ((s.readZP16 (ol + s.x)).2.readAt (s.readZP16 (ol + s.x)).1).1 := by
  rw [prepare, h, resolve, readZP16_eq, readZP16_eq]
  rfl

theorem prepare_indirectIndexedY (h : i.operand = .indirectIndexedY ol) :
    (s.prepare i).1 = ((s.readZP16 ol).2.readAt ((s.readZP16 ol).1 + zext16 s.y)).1 := by
  rw [prepare, h, resolve, readIndexed_eq, readZP16_eq, readZP16_eq]
  rfl

theorem readsValAt_zeroPage (h : i.operand = .zeroPage ol) : s.ReadsValAt i (zext16 ol) := by
  constructor <;> (rw [prepare, h]; rfl)

theorem readsValAt_zeroPageX (h : i.operand = .zeroPageX ol) : s.ReadsValAt i (zext16 (ol + s.x)) := by
  constructor <;> (rw [prepare, h]; rfl)

theorem readsValAt_zeroPageY (h : i.operand = .zeroPageY ol) : s.ReadsValAt i (zext16 (ol + s.y)) := by
  constructor <;> (rw [prepare, h]; rfl)

theorem readsValAt_absoluteX (h : i.operand = .absoluteX ow) : s.ReadsValAt i (ow + zext16 s.x) := by
  constructor <;> (rw [prepare, h, resolve, readIndexed_eq]; rfl)

theorem readsValAt_absoluteY (h : i.operand = .absoluteY ow) : s.ReadsValAt i (ow + zext16 s.y) := by
  constructor <;> (rw [prepare, h, resolve, readIndexed_eq]; rfl)

end

/-- The address of a zero-page pointer's high byte, as a number (20_memory.md R51). -/
theorem pointerSecondAddr_eq (wrap : Bool) (z : Byte) :
    (if wrap then zext16 (z + 1) else zext16 z + 1) =
      BitVec.ofNat 16 (if wrap then (z.toNat + 1) % 256 else z.toNat + 1) := by
  have hz := toNat_zext16 z
  have hz' := toNat_zext16 (z + 1)
  cases wrap
  · simp only [Bool.false_eq_true, if_false]
    bv_omega
  · simp only [if_true]
    bv_omega

/-- The pointer is its two bytes, each as the memory map answers in its turn (20_memory.md R51). -/
theorem readZP16_eq_answer (s : State) (z : Byte) :
    let hi : Word := BitVec.ofNat 16 (if s.cfg.zpPointerWrap then (z.toNat + 1) % 256 else z.toNat + 1)
    s.readZP16 z =
      (joinBytes (answer s (.read (zext16 z) :: s.bus) hi) (answer s s.bus (zext16 z)),
       { s with bus := .read hi :: .read (zext16 z) :: s.bus }) := by
  rw [readZP16_eq, pointerSecondAddr_eq]
  rfl

end State

theorem pointerHighAddr_eq (ow : Word) :
    pointerHighAddr ow = if ow.toNat % 256 = 0xFF then BitVec.ofNat 16 (ow.toNat - 0xFF) else ow + 1 := by
  have hlo : loByte ow = 0xFF ↔ ow.toNat % 256 = 0xFF := by
    rw [← BitVec.toNat_inj, toNat_loByte]
    rfl
  simp only [pointerHighAddr, hlo]
  split
  · have hbase : (joinBytes (hiByte ow) 0).toNat = ow.toNat / 256 * 256 := by
      simp [toNat_joinBytes, toNat_hiByte]
    bv_omega
  · rfl

/-- JMP indirect, opcode 0x6C, alone has Indirect mode (30_encoding.md R67, R75). -/
theorem modeOf_eq_indirect_iff : ∀ (x : Bool) (op : Byte), modeOf x op = .indirect ↔ op = 0x6C := by
  decide +kernel

end Sys2Proof.Machine

namespace Sys2Proof.Proofs

open Machine Claims

/-- Settles O1: the encoder's bytes are an opcode byte the grid decodes to the instruction, and as many operand bytes as
that byte calls for. -/
theorem decodeOfEncodeIsIdentity : Obligations.DecodeOfEncodeIsIdentity := by
  intro x i bs rest hw h
  obtain ⟨op, hop, rfl⟩ := Option.map_eq_some_iff.mp h
  have hi := instrOf_opcodeOf hw hop
  have hlen : i.operand.bytes.length + 1 = lengthOf x op := by
    rw [length_bytes, ← instrOf_length x op _ _, hi, Instr.length]
  rw [List.cons_append, decode_taken hlen, hi]

/-- Settles O2: the instruction decoded has the opcode byte taken, and its operand has the operand bytes taken. -/
theorem encodeOfDecodeIsIdentity : Obligations.EncodeOfDecodeIsIdentity := by
  intro x bytes rest i h
  obtain ⟨op, taken, rfl, hlen, rfl⟩ := taken_of_decode h
  refine ⟨wellFormed_of_decode h, op :: taken, ?_, rfl⟩
  rw [encode, opcodeOf_instrOf, operand_instrOf, bytes_ofBytes hlen]
  rfl

/-- Settles O3: at a byte of the list the grid is Null, and what any byte decodes to is well formed, so that Null carries a
byte of the list, the one decoded. -/
theorem nullBytesAreTheListedOnes : Obligations.NullBytesAreTheListedOnes := by
  refine ⟨fun x op ol oh => ⟨?_, fun h => ⟨op, instrOf_of_isNullByte h ol oh⟩⟩,
    fun x op ol oh h => instrOf_of_isNullByte h ol oh, by decide, by decide, by decide⟩
  rintro ⟨b, hb⟩
  obtain ⟨-, hw, hop⟩ := instrOf_facts x op ol oh
  rw [hb] at hw hop
  obtain rfl := Option.some.inj hop
  exact hw

/-- Settles O4, by running the decoder on the words. -/
theorem sampleWordsDecode : Obligations.SampleWordsDecode :=
  ⟨rfl, rfl, rfl, rfl, rfl, rfl, rfl, rfl, rfl, rfl, rfl, rfl, rfl⟩

/-- Settles O6: the fetch gives the instruction decoded, and the command taken is no part of it. -/
theorem stepRunsDecodedInstruction : Obligations.StepRunsDecodedInstruction := by
  intro s i rest hf hc hd
  refine ⟨wellFormed_of_decode hd, ?_⟩
  have hfetch := fetch_of_decode hd
  rcases hc with hc | ⟨cs, hc⟩
  · rw [step_of_no_command hc, stepCommand_of_no_fault hf, hfetch, hc, List.tail_nil]
  · have hf' : State.fault { s with commands := cs } = none := hf
    rw [step_of_step hc, stepCommand_of_no_fault hf', fetch_with_p_commands s s.p cs, hfetch, hc, List.tail_cons]

/-- Settles O16: the index is added as a byte, and the one access is the read of VAL. -/
theorem zeroPageModeResolution : Obligations.ZeroPageModeResolution := by
  intro i s hi
  obtain ⟨t, h, hlatch, -⟩ := exec_accesses s hi
  refine ⟨t, h, hlatch, fun ol => ?_⟩
  rw [hlatch]
  refine ⟨fun ho => ?_, fun ho => ?_, fun ho => ?_, fun ho => ?_⟩
  · rw [(State.readsValAt_zeroPage ho).latch, toNat_zext16]
  · rw [(State.readsValAt_zeroPageX ho).latch, toNat_zext16, BitVec.toNat_add]
  · rw [(State.readsValAt_zeroPageY ho).latch, toNat_zext16, BitVec.toNat_add]
  · obtain ⟨ea, reads⟩ : ∃ ea, s.ReadsValAt i ea := by
      rcases ho with ho | ho | ho
      · exact ⟨_, State.readsValAt_zeroPage ho⟩
      · exact ⟨_, State.readsValAt_zeroPageX ho⟩
      · exact ⟨_, State.readsValAt_zeroPageY ho⟩
    rw [reads.bus, reads.latch]
    exact ⟨rfl, rfl⟩

/-- Settles O17: the word is the address, which the pairings of R71 do not read, or the index is added to it as a word. -/
theorem absoluteModeResolution : Obligations.AbsoluteModeResolution := by
  intro i s hi
  obtain ⟨t, h, hlatch, -⟩ := exec_accesses s hi
  refine ⟨t, h, fun ow => ?_⟩
  rw [hlatch]
  refine ⟨fun ho => ?_, fun ho => ?_, fun ho => ?_⟩
  · rw [State.prepare_absolute ho]
    exact ⟨rfl, by cases i <;> rfl⟩
  · rw [(State.readsValAt_absoluteX ho).latch, BitVec.toNat_add, toNat_zext16]
    exact ⟨rfl, rfl⟩
  · rw [(State.readsValAt_absoluteY ho).latch, BitVec.toNat_add, toNat_zext16]
    exact ⟨rfl, rfl⟩

/-- Settles O18: the pointer is read with its bytes at the addresses of R51; X is added before, as a byte, and Y after, as a
word. -/
theorem pointerModeResolution : Obligations.PointerModeResolution := by
  intro i s hi
  obtain ⟨t, h, hlatch, -⟩ := exec_accesses s hi
  refine ⟨t, h, fun ol z => ?_⟩
  rw [hlatch]
  refine ⟨fun ho hz => ?_, fun ho hz => ?_⟩
  · obtain rfl : z = ol + s.x := BitVec.eq_of_toNat_eq hz
    rw [State.prepare_indexedIndirectX ho, State.readZP16_eq_answer]
    exact ⟨toNat_joinBytes _ _, rfl⟩
  · subst hz
    rw [State.prepare_indirectIndexedY ho, State.readZP16_eq_answer, ← toNat_joinBytes, ← toNat_zext16 s.y]
    exact ⟨BitVec.toNat_add _ _, rfl⟩

/-- Settles O19: the address of the pointer's high byte, as a number, in what JMP indirect does. -/
theorem jmpIndirectKeepsPageWrapBug : Obligations.JmpIndirectKeepsPageWrapBug := by
  refine ⟨modeOf_eq_indirect_iff, fun _ => rfl, fun ow s => ⟨_, exec_jmp _ s, ?_⟩⟩
  have resolved := State.resolvesTo_indirect (s := s) (i := .jmp (.indirect ow)) rfl
  rw [← pointerHighAddr_eq, State.prepared, resolved.latch, resolved.bus]
  exact ⟨toNat_joinBytes _ _, rfl, rfl⟩

/-- Settles O20, mode by mode. -/
theorem modesWithoutMemoryResolution : Obligations.ModesWithoutMemoryResolution := by
  intro i s hi
  obtain ⟨t, h, hlatch, -⟩ := exec_accesses s hi
  refine ⟨t, h, hlatch, ?_⟩
  rw [hlatch]
  refine ⟨fun ho => ?_, fun ho => ?_, fun ol ho => ?_⟩
  · have resolved := State.resolvesTo_implied (s := s) ho
    exact ⟨resolved.latch, resolved.bus⟩
  · have resolved := State.resolvesTo_accumulator (s := s) ho
    rw [resolved.latch]
    exact ⟨toNat_zext16 _, rfl, resolved.bus⟩
  · have resolved := State.resolvesTo_immediate (s := s) ho
    rw [resolved.latch]
    exact ⟨toNat_zext16 _, rfl, resolved.bus⟩

/-- Settles O21: the sum of words is the sum of integers modulo 65536. -/
theorem relativeModeResolution : Obligations.RelativeModeResolution := by
  intro i s ol hi ho
  obtain ⟨t, h, hlatch, -⟩ := exec_accesses s hi
  refine ⟨t, h, ?_⟩
  have resolved := State.resolvesTo_relative (s := s) ho
  rw [hlatch, resolved.latch]
  refine ⟨?_, rfl, rfl, resolved.bus, State.prepare_cyc_relative ho⟩
  have hoffset := toNat_sext16 ol
  have htwo : (2 : Word).toNat = 2 := rfl
  simp only [BitVec.toNat_add, htwo]
  omega

end Sys2Proof.Proofs

/-! The arithmetic and flag helpers (40_alu_flag_helpers.md): Z and N, the shift to the left and the comparison as integers,
and Overflow as signed overflow. -/

namespace Sys2Proof

/-! ## Bits and signs of a byte -/

theorem getLsbD_seven_eq_decide (v : Byte) : v.getLsbD 7 = decide (128 ≤ v.toNat) :=
  (BitVec.msb_eq_getLsbD_last v).symm.trans (BitVec.msb_eq_decide v)

theorem and_signMask_ne_zero_iff_msb (v : Byte) : v &&& 0x80 ≠ 0 ↔ v.msb = true := by
  have hmask : v &&& 0x80 = if v.getLsbD 7 then 0x80 else 0 := BitVec.and_twoPow v 7
  rw [hmask, BitVec.msb_eq_getLsbD_last]
  cases v.getLsbD 7 <;> decide

/-- The shift leaves bit 0 clear, so that bringing a bit in there is adding it. -/
theorem toNat_shiftLeft_one_or_bit (v : Byte) (bit : Bool) :
    ((v <<< 1) ||| (if bit then 1 else 0)).toNat = (v.toNat * 2 + bit.toNat) % 256 := by
  have hdisjoint : (v <<< 1) &&& (if bit then 1 else 0) = 0 := by
    cases bit
    case false => exact BitVec.and_zero
    case true => exact (BitVec.and_twoPow _ 0).trans (by rw [BitVec.getLsbD_shiftLeft]; rfl)
  have hbit : (if bit then 1 else 0 : Byte).toNat = bit.toNat := by cases bit <;> rfl
  rw [← BitVec.add_eq_or_of_and_eq_zero _ _ hdisjoint, BitVec.toNat_add, BitVec.toNat_shiftLeft, Nat.shiftLeft_eq, hbit]
  exact Nat.mod_add_mod _ _ _

theorem toInt_not_eq_neg_sub_one (v : Byte) : (~~~v).toInt = -v.toInt - 1 := by
  have := v.isLt
  rw [BitVec.toInt_eq_toNat_cond, BitVec.toInt_eq_toNat_cond, BitVec.toNat_not]
  omega

end Sys2Proof

namespace Sys2Proof.Machine

open Claims

/-! ## Zero and Sign (40_alu_flag_helpers.md R90) -/

theorem Flags.setZN_eq_zn (p : Flags) (v : Byte) : p.setZN v = zn p v := by
  have hz : decide (v = 0) = decide (v.toNat = 0) := decide_eq_decide.mpr BitVec.toNat_eq
  rw [setZN, zn, hz, getLsbD_seven_eq_decide]

theorem zn_ofInt (p : Flags) (n : Int) :
    zn p (BitVec.ofInt 8 n) = { p with z := decide (n % 256 = 0), n := decide (128 ≤ n % 256) } := by
  have hv : (BitVec.ofInt 8 n).toNat = (n % 256).toNat := BitVec.toNat_ofInt n
  have hz : (n % 256).toNat = 0 ↔ n % 256 = 0 := by omega
  have hn : 128 ≤ (n % 256).toNat ↔ 128 ≤ n % 256 := by omega
  simp only [zn, hv, hz, hn]

/-! ## Shift left and compare (R92, R93) -/

theorem toNat_shiftLeft_fst (p : Flags) (v : Byte) (rotate : Bool) :
    (shiftLeft p v rotate).1.toNat = (v.toNat * 2 + if rotate then p.c.toNat else 0) % 256 := by
  have h : (shiftLeft p v rotate).1.toNat = (v.toNat * 2 + (rotate && p.c).toNat) % 256 :=
    toNat_shiftLeft_one_or_bit v (rotate && p.c)
  rw [h]
  cases rotate <;> rfl

theorem shiftLeft_snd (p : Flags) (v : Byte) (rotate : Bool) :
    (shiftLeft p v rotate).2 = zn { p with c := decide (128 ≤ v.toNat) } (shiftLeft p v rotate).1 := by
  rw [← getLsbD_seven_eq_decide, ← Flags.setZN_eq_zn]
  rfl

theorem Flags.compare_eq_compared (p : Flags) (v r : Byte) : p.compare v r = compared p r v := by
  have hz : r = v ↔ r.toNat = v.toNat := BitVec.toNat_eq
  have hn : 128 ≤ (r - v).toNat ↔ 128 ≤ ((r.toNat : Int) - v.toNat) % 256 := by
    have := v.isLt
    rw [BitVec.toNat_sub]
    omega
  simp only [compare, compared, getLsbD_seven_eq_decide, hz, hn]

/-! ## Overflow (R94) -/

theorem toNat_addWithCarry_fst (p : Flags) (a v : Byte) :
    (addWithCarry p a v).1.toNat = (a.toNat + v.toNat + p.c.toNat) % 256 := BitVec.toNat_ofNat _ _

/-- V is clear when the sum agrees in sign with one of the two bytes added. -/
theorem addWithCarry_v_eq_false_iff_msb (p : Flags) (a v : Byte) :
    (addWithCarry p a v).2.v = false ↔
      a.msb = (addWithCarry p a v).1.msb ∨ v.msb = (addWithCarry p a v).1.msb := by
  have hmask : (addWithCarry p a v).2.v = true ↔
      ((a ^^^ (addWithCarry p a v).1) &&& (v ^^^ (addWithCarry p a v).1)).msb = true :=
    decide_eq_true_iff.trans (and_signMask_ne_zero_iff_msb _)
  rw [Bool.eq_iff_iff.mpr hmask, BitVec.msb_and, BitVec.msb_xor, BitVec.msb_xor, Bool.and_eq_false_iff,
    bne_eq_false_iff_eq, bne_eq_false_iff_eq]

theorem addWithCarry_v_eq_false_iff (p : Flags) (a v : Byte) :
    (addWithCarry p a v).2.v = false ↔
      -128 ≤ a.toInt + v.toInt + p.c.toNat ∧ a.toInt + v.toInt + p.c.toNat ≤ 127 := by
  have hsum := toNat_addWithCarry_fst p a v
  have ha := a.isLt
  have hv := v.isLt
  have hc := p.c.toNat_le
  simp only [addWithCarry_v_eq_false_iff_msb, BitVec.msb_eq_decide, decide_eq_decide, BitVec.toInt_eq_toNat_cond, hsum]
  omega

/-- Adding the complement of `v` is taking away `v` and the borrow (48_add_sub.md R137). -/
theorem addWithCarry_not_v_eq_false_iff (p : Flags) (a v : Byte) :
    (addWithCarry p a (~~~v)).2.v = false ↔
      -128 ≤ a.toInt - v.toInt - (1 - (p.c.toNat : Int)) ∧ a.toInt - v.toInt - (1 - (p.c.toNat : Int)) ≤ 127 := by
  have hdifference : a.toInt + (~~~v).toInt + p.c.toNat = a.toInt - v.toInt - (1 - (p.c.toNat : Int)) := by
    rw [toInt_not_eq_neg_sub_one]
    ring
  rw [addWithCarry_v_eq_false_iff, hdifference]

end Sys2Proof.Machine

namespace Sys2Proof.Proofs

open Machine Claims

/-- Settles O22: the bits the helpers test are read as integers, for setRegister those of the integer modulo 256. -/
theorem helperResults : Obligations.HelperResults := by
  refine ⟨fun s n => ?_, fun p v rotate => ⟨toNat_shiftLeft_fst p v rotate, shiftLeft_snd p v rotate⟩,
    Flags.compare_eq_compared⟩
  have hflags := (s.p.setZN_eq_zn _).trans (zn_ofInt s.p n)
  intro v flags
  simp only [State.setRegisterA, State.setRegisterX, State.setRegisterY, v, flags, hflags, and_self]

/-- Settles O40: V is clear when the sum agrees in sign with a byte added, which is when the signed sum is in range; SBC
adds the complement. -/
theorem overflowIsSignedOverflow : Obligations.OverflowIsSignedOverflow := fun m s =>
  ⟨⟨_, exec_adc m s, addWithCarry_v_eq_false_iff _ _ _⟩, ⟨_, exec_sbc m s, addWithCarry_not_v_eq_false_iff _ _ _⟩⟩

end Sys2Proof.Proofs

/-! Load and store (41_load_store.md): what a write leaves in RAM, and the results of the three loads and the three
stores. -/

namespace Sys2Proof.Machine

open Claims

/-! ## RAM after a write (20_memory.md R46, R49) -/

namespace State

variable {s t : State} {addr : Word} {v : Byte}

theorem ramHolds_of_mem_eq_ramAfter (hs : s.mem.wf = true) (hm : t.mem = s.ramAfter addr v) : ramHolds s t addr v := by
  intro ho
  rw [hm, read_ramAfter hs, if_pos ⟨ho, rfl⟩]

theorem ramSameOutside_of_mem_eq_ramAfter (hs : s.mem.wf = true) (hm : t.mem = s.ramAfter addr v) :
    ramSameOutside s t [addr] := by
  intro b hb
  have hne : b.toNat ≠ addr.toNat := fun h => hb (List.mem_singleton.mpr (BitVec.eq_of_toNat_eq h))
  rw [hm, read_ramAfter hs, if_neg fun h => hne h.2]

/-- Where the map answers for itself, the byte goes to the map alone. -/
theorem ramAfter_of_isOpaque (ho : s.isOpaque addr = true) (v : Byte) : s.ramAfter addr v = s.mem := if_pos ho

end State

/-! ## The stores (41_load_store.md R98 to R100) -/

/-- A store of any of the three registers writes it at EA and moves PC past the instruction. -/
theorem exec_store {m : Operand} {s : State} {i : Instr} {v : Byte}
    (hi : (i, v) ∈ [(Instr.sta m, s.a), (Instr.stx m, s.x), (Instr.sty m, s.y)]) :
    exec i s = .next
      { s.prepared i with
        mem := s.ramAfter (s.prepare i).1.ea v
        bus := .write (s.prepare i).1.ea v :: (s.prepared i).bus
        pc := past s m.mode } := by
  simp only [List.mem_cons, Prod.mk.injEq, List.not_mem_nil, or_false] at hi
  obtain ⟨rfl, rfl⟩ | ⟨rfl, rfl⟩ | ⟨rfl, rfl⟩ := hi
  · exact exec_sta m s
  · exact exec_stx m s
  · exact exec_sty m s

end Sys2Proof.Machine

namespace Sys2Proof.Proofs

open Machine Claims

/-- Settles O25: a load's end state is the prepared state with VAL in the register, and SetZN gives Z and N of that byte. -/
theorem loadResults : Obligations.LoadResults := by
  intro m s
  refine ⟨⟨_, exec_lda m s, ?_⟩, ⟨_, exec_ldx m s, ?_⟩, ⟨_, exec_ldy m s, ?_⟩⟩ <;> (rw [Flags.setZN_eq_zn]; rfl)

/-- Settles O26: the end state differs from the prepared state in PC, the history and RAM, and RAM is that of one write at
EA. -/
theorem storeResults : Obligations.StoreResults := by
  intro m s i v hs hi
  refine ⟨_, exec_store hi, rfl, ?_⟩
  rintro ea rfl
  exact ⟨rfl, State.ramHolds_of_mem_eq_ramAfter hs rfl, State.ramSameOutside_of_mem_eq_ramAfter hs rfl,
    fun ho => State.ramAfter_of_isOpaque ho v⟩

end Sys2Proof.Proofs

/-! Shift and rotate (42_shift_rotate.md): shiftRight as integers, and the results of the four shifts in Accumulator mode and
in the memory modes. -/

namespace Sys2Proof

theorem getLsbD_zero_eq_decide (v : Byte) : v.getLsbD 0 = decide (v.toNat % 2 = 1) := Nat.testBit_zero _

/-- The shift leaves bit 7 clear, so that bringing a bit in there is adding it, without a carry out of the byte. -/
theorem toNat_ushiftRight_one_or_bit (v : Byte) (bit : Bool) :
    ((v >>> 1) ||| (if bit then 0x80 else 0)).toNat = v.toNat / 2 + 128 * bit.toNat := by
  have hdisjoint : (v >>> 1) &&& (if bit then 0x80 else 0) = 0 := by
    cases bit
    case false => exact BitVec.and_zero
    case true => exact (BitVec.and_twoPow _ 7).trans (by rw [BitVec.getLsbD_ushiftRight, v.getLsbD_of_ge _ le_rfl]; rfl)
  have hbit : (if bit then 0x80 else 0 : Byte).toNat = 128 * bit.toNat := by cases bit <;> rfl
  rw [← BitVec.add_eq_or_of_and_eq_zero _ _ hdisjoint, BitVec.toNat_add, BitVec.toNat_ushiftRight,
    Nat.shiftRight_eq_div_pow, hbit]
  have := v.isLt
  have := bit.toNat_le
  omega

end Sys2Proof

namespace Sys2Proof.Machine

open Claims

/-! ## Shift right (40_alu_flag_helpers.md R91) -/

theorem toNat_shiftRight_fst (p : Flags) (v : Byte) (rotate : Bool) :
    (shiftRight p v rotate).1.toNat = v.toNat / 2 + if rotate then 128 * p.c.toNat else 0 := by
  have h : (shiftRight p v rotate).1.toNat = v.toNat / 2 + 128 * (rotate && p.c).toNat :=
    toNat_ushiftRight_one_or_bit v (rotate && p.c)
  rw [h]
  cases rotate <;> rfl

theorem shiftRight_snd (p : Flags) (v : Byte) (rotate : Bool) :
    (shiftRight p v rotate).2 = zn { p with c := decide (v.toNat % 2 = 1) } (shiftRight p v rotate).1 := by
  rw [← getLsbD_zero_eq_decide, ← Flags.setZN_eq_zn]
  rfl

/-! ## The four shifts (42_shift_rotate.md R101 to R105) -/

/-- Each shift on the operand `m`, with the byte it makes of VAL and the bit it shifts out (R102 to R105). -/
def shiftResults (m : Operand) (p : Flags) (v : Byte) : List (Instr × Nat × Bool) :=
  [(.asl m, v.toNat * 2 % 256, decide (128 ≤ v.toNat)),
   (.lsr m, v.toNat / 2, decide (v.toNat % 2 = 1)),
   (.rol m, (v.toNat * 2 + p.c.toNat) % 256, decide (128 ≤ v.toNat)),
   (.ror m, v.toNat / 2 + 128 * p.c.toNat, decide (v.toNat % 2 = 1))]

section

variable {m : Operand} {s : State} {i : Instr} {result : Nat} {carry : Bool} {v : Byte}

theorem mem_shiftResults_iff {p : Flags} : (i, result, carry) ∈ shiftResults m p v ↔
    (i = .asl m ∧ result = v.toNat * 2 % 256 ∧ carry = decide (128 ≤ v.toNat)) ∨
    (i = .lsr m ∧ result = v.toNat / 2 ∧ carry = decide (v.toNat % 2 = 1)) ∨
    (i = .rol m ∧ result = (v.toNat * 2 + p.c.toNat) % 256 ∧ carry = decide (128 ≤ v.toNat)) ∨
    (i = .ror m ∧ result = v.toNat / 2 + 128 * p.c.toNat ∧ carry = decide (v.toNat % 2 = 1)) := by
  simp only [shiftResults, List.mem_cons, Prod.mk.injEq, List.not_mem_nil, or_false]

theorem operand_of_mem_shiftResults {p : Flags} (hi : (i, result, carry) ∈ shiftResults m p v) : i.operand = m := by
  obtain ⟨rfl, -⟩ | ⟨rfl, -⟩ | ⟨rfl, -⟩ | ⟨rfl, -⟩ := mem_shiftResults_iff.mp hi <;> rfl

/-- Any of the four makes its byte `r` and the flags of it, and writes `r` back to A in Accumulator mode, else once at EA. -/
theorem exec_shift (hv : v = (s.prepare i).1.val) (hi : (i, result, carry) ∈ shiftResults m s.p v) :
    ∃ r : Byte, r.toNat = result ∧ exec i s = .next
      { s.prepared i with
        a := if m.mode = .accumulator then r else s.a
        p := zn { s.p with c := carry } r
        mem := if m.mode = .accumulator then s.mem else s.ramAfter (s.prepare i).1.ea r
        bus := if m.mode = .accumulator then (s.prepared i).bus else .write (s.prepare i).1.ea r :: (s.prepared i).bus
        pc := past s m.mode } := by
  subst hv
  obtain ⟨rfl, rfl, rfl⟩ | ⟨rfl, rfl, rfl⟩ | ⟨rfl, rfl, rfl⟩ | ⟨rfl, rfl, rfl⟩ := mem_shiftResults_iff.mp hi
  · exact ⟨_, toNat_shiftLeft_fst s.p _ false, by rw [← shiftLeft_snd]; exact exec_asl m s⟩
  · exact ⟨_, toNat_shiftRight_fst s.p _ false, by rw [← shiftRight_snd]; exact exec_lsr m s⟩
  · exact ⟨_, toNat_shiftLeft_fst s.p _ true, by rw [← shiftLeft_snd]; exact exec_rol m s⟩
  · exact ⟨_, toNat_shiftRight_fst s.p _ true, by rw [← shiftRight_snd]; exact exec_ror m s⟩

end

end Sys2Proof.Machine

namespace Sys2Proof.Proofs

open Machine Claims

/-- Settles O27: in Accumulator mode VAL is A, and the shifted byte is written back to A. -/
theorem accumulatorShiftResults : Obligations.AccumulatorShiftResults := by
  intro s i result carry hi
  have hi : (i, result, carry) ∈ shiftResults .accumulator s.p s.a := hi
  have hval : s.a = (s.prepare i).1.val := by
    rw [(State.resolvesTo_accumulator (operand_of_mem_shiftResults hi)).latch]
  obtain ⟨r, hr, hexec⟩ := exec_shift hval hi
  exact ⟨_, hexec, hr, rfl⟩

/-- Settles O28: in the other modes the shifted byte goes to RAM with one write at EA, and A stays. -/
theorem memoryShiftResults : Obligations.MemoryShiftResults := by
  intro m s i result carry v hs hm hv hi
  obtain ⟨r, rfl, hexec⟩ := exec_shift hv hi
  have hmode : m.mode ≠ .accumulator := mt mode_eq_accumulator_iff.mp hm
  simp only [if_neg hmode] at hexec
  rw [BitVec.ofNat_toNat, BitVec.setWidth_eq]
  refine ⟨_, hexec, hv.symm, rfl, ?_⟩
  rintro ea rfl
  exact ⟨rfl, State.ramHolds_of_mem_eq_ramAfter hs rfl, State.ramSameOutside_of_mem_eq_ramAfter hs rfl⟩

end Sys2Proof.Proofs

/-! Increment and decrement (43_inc_dec.md): a byte less one modulo 256, and the results of INC, DEC and the four register
instructions. -/

namespace Sys2Proof

theorem toNat_sub_one (v : Byte) : (v - 1).toNat = (v.toNat + 255) % 256 := by
  rw [Nat.add_comm]
  exact BitVec.toNat_sub v 1

end Sys2Proof

namespace Sys2Proof.Machine

open Claims

/-! ## INC and DEC (43_inc_dec.md R106, R107) -/

/-- Either makes its byte `r` of VAL and the flags of it, and writes `r` once at EA. -/
theorem exec_memoryIncrement {m : Operand} {s : State} {i : Instr} {result : Nat}
    (hi : (i, result) ∈
      [(Instr.inc m, ((s.prepare i).1.val.toNat + 1) % 256), (Instr.dec m, ((s.prepare i).1.val.toNat + 255) % 256)]) :
    ∃ r : Byte, r.toNat = result ∧ exec i s = .next
      { s.prepared i with
        p := zn s.p r
        mem := s.ramAfter (s.prepare i).1.ea r
        bus := .write (s.prepare i).1.ea r :: (s.prepared i).bus
        pc := past s m.mode } := by
  simp only [List.mem_cons, Prod.mk.injEq, List.not_mem_nil, or_false] at hi
  obtain ⟨rfl, rfl⟩ | ⟨rfl, rfl⟩ := hi
  · exact ⟨_, BitVec.toNat_add _ 1, by rw [← Flags.setZN_eq_zn]; exact exec_inc m s⟩
  · exact ⟨_, toNat_sub_one _, by rw [← Flags.setZN_eq_zn]; exact exec_dec m s⟩

end Sys2Proof.Machine

namespace Sys2Proof.Proofs

open Machine Claims

/-- Settles O29: the end state differs from the prepared state in PC, Z, N, the history and RAM, and RAM is that of one
write at EA. -/
theorem memoryIncrementResults : Obligations.MemoryIncrementResults := by
  intro m s i result hs hi
  obtain ⟨r, rfl, hexec⟩ := exec_memoryIncrement hi
  rw [BitVec.ofNat_toNat, BitVec.setWidth_eq]
  refine ⟨_, hexec, rfl, rfl, ?_⟩
  rintro ea rfl
  exact ⟨State.ramHolds_of_mem_eq_ramAfter hs rfl, State.ramSameOutside_of_mem_eq_ramAfter hs rfl⟩

/-- Settles O30: each end state is the prepared state with the register's next or previous byte in it, and SetZN gives Z
and N of that byte. -/
theorem registerIncrementResults : Obligations.RegisterIncrementResults := by
  refine ⟨⟨rfl, rfl, rfl, rfl⟩, fun s => ⟨?inx, ?iny, ?dex, ?dey⟩⟩
  case inx => exact ⟨_, exec_inx s, BitVec.toNat_add s.x 1, by rw [Flags.setZN_eq_zn]; rfl⟩
  case iny => exact ⟨_, exec_iny s, BitVec.toNat_add s.y 1, by rw [Flags.setZN_eq_zn]; rfl⟩
  case dex => exact ⟨_, exec_dex s, toNat_sub_one s.x, by rw [Flags.setZN_eq_zn]; rfl⟩
  case dey => exact ⟨_, exec_dey s, toNat_sub_one s.y, by rw [Flags.setZN_eq_zn]; rfl⟩

end Sys2Proof.Proofs

/-! Transfers (44_transfers.md): the results of the six copies between registers. -/

namespace Sys2Proof.Proofs

open Machine

/-- Settles O31: each end state is the prepared state with the source's byte in the destination, and SetZN, in all but
TXS, gives Z and N of that byte. -/
theorem transferResults : Obligations.TransferResults := by
  refine ⟨⟨rfl, rfl, rfl, rfl, rfl, rfl⟩, fun s => ?_⟩
  simp only [← Flags.setZN_eq_zn]
  exact ⟨⟨_, exec_tax s, rfl⟩, ⟨_, exec_txa s, rfl⟩, ⟨_, exec_tay s, rfl⟩, ⟨_, exec_tya s, rfl⟩,
    ⟨_, exec_tsx s, rfl⟩, ⟨_, exec_txs s, rfl⟩⟩

end Sys2Proof.Proofs

/-! Flag operations (45_flag_ops.md): the results of the seven that set or clear one flag. -/

namespace Sys2Proof.Proofs

open Machine

/-- Settles O32: the grid has CLI at 0x58 as an extra, and each end state is the prepared state with the one flag written
and PC past the opcode byte. -/
theorem flagOperationResults : Obligations.FlagOperationResults := by
  have hcli : pairingOf true 0x58 = some (.implied, fun _ => .cli) := rfl
  have hnull : isNullByte false 0x58 = true := by decide
  refine ⟨⟨rfl, rfl, rfl, rfl, rfl, rfl,
    fun ol oh => ⟨instrOf_of_pairing hcli ol oh, instrOf_of_isNullByte hnull ol oh⟩⟩, fun s => ?_⟩
  exact ⟨⟨_, exec_sec s, rfl⟩, ⟨_, exec_clc s, rfl⟩, ⟨_, exec_clv s, rfl⟩, ⟨_, exec_sei s, rfl⟩,
    ⟨_, exec_sed s, rfl⟩, ⟨_, exec_cld s, rfl⟩, ⟨_, exec_cli s, rfl⟩⟩

end Sys2Proof.Proofs

/-! Push and pop of processor state (46_stack_ops.md): the status byte in both directions, and the results of PHA, PHP, PLA
and PLP. -/

namespace Sys2Proof.Machine

open Claims

/-! ## The status byte (10_state.md R28) -/

namespace Flags

theorem toByte_eq_statusByte (p : Flags) : p.toByte = statusByte p := by
  obtain ⟨c, z, i, d, b, u, v, n⟩ := p
  revert c z i d b u v n
  decide

/-- A bit of a byte is the parity of the byte divided by the bit's weight. -/
theorem ofByte_eq_flagsFrom (b : Byte) : ofByte b = flagsFrom b := by
  have hbit (k : Nat) : b.getLsbD k = decide (b.toNat / 2 ^ k % 2 = 1) := Nat.testBit_eq_decide_div_mod_eq
  simp only [ofByte, flagsFrom, hbit, Nat.reducePow, Nat.div_one]

theorem ofByte_toByte (p : Flags) : ofByte p.toByte = p := by
  obtain ⟨c, z, i, d, b, u, v, n⟩ := p
  revert c z i d b u v n
  decide

/-- A byte is the sum of its bits by their weights. -/
theorem toByte_ofByte (b : Byte) : (ofByte b).toByte = b := by
  have hbit (k : Nat) : (decide (k % 2 = 1)).toNat = k % 2 := by
    rcases Nat.mod_two_eq_zero_or_one k with h | h <;> rw [h] <;> rfl
  rw [ofByte_eq_flagsFrom, toByte_eq_statusByte]
  apply BitVec.eq_of_toNat_eq
  simp only [statusByte, flagsFrom, hbit, BitVec.toNat_ofNat]
  omega

theorem flagsFrom_statusByte (p : Flags) : flagsFrom (statusByte p) = p := by
  rw [← ofByte_eq_flagsFrom, ← toByte_eq_statusByte, ofByte_toByte]

@[simp] theorem ofByte_or_maskU (b : Byte) : ofByte (b ||| maskU) = { ofByte b with u := true } := by
  simp [ofByte, maskU]

@[simp] theorem ofByte_or_maskB (b : Byte) : ofByte (b ||| maskB) = { ofByte b with b := true } := by
  simp [ofByte, maskB]

@[simp] theorem ofByte_and_not_maskB (b : Byte) : ofByte (b &&& ~~~maskB) = { ofByte b with b := false } := by
  simp [ofByte, maskB]

/-- What PHP pushes (46_stack_ops.md R127). -/
theorem toByte_or_maskB (p : Flags) : p.toByte ||| maskB = statusByte { p with b := true } := by
  rw [← toByte_ofByte (p.toByte ||| maskB), ofByte_or_maskB, ofByte_toByte, toByte_eq_statusByte]

/-- What PLP makes of the byte it pops (46_stack_ops.md R128). -/
theorem ofByte_or_maskU_and_not_maskB (b : Byte) :
    ofByte ((b ||| maskU) &&& ~~~maskB) = { flagsFrom b with u := true, b := false } := by
  rw [ofByte_and_not_maskB, ofByte_or_maskU, ofByte_eq_flagsFrom]

end Flags

/-! ## PHA and PHP (46_stack_ops.md R125, R127) -/

section

variable {s t : State} {i : Instr} {v : Byte}
  (hi : (i, v) ∈ [(Instr.pha, s.a), (Instr.php, statusByte { s.p with b := true })])

include hi

/-- Either pushes its byte and moves PC past the instruction. -/
theorem exec_pushInstr :
    exec i s = .next
      { s.prepared i with
        sp := s.sp - 1
        mem := s.ramAfter (stackAddr s.sp) v
        bus := .write (stackAddr s.sp) v :: (s.prepared i).bus
        pc := s.pc + 1 } := by
  simp only [List.mem_cons, Prod.mk.injEq, List.not_mem_nil, or_false] at hi
  obtain ⟨rfl, rfl⟩ | ⟨rfl, rfl⟩ := hi
  · exact exec_pha s
  · rw [← Flags.toByte_or_maskB]
    exact exec_php s

/-- What either pushes is what the next Pop gives, where the stack page is plain RAM (20_memory.md R60, R61). -/
theorem peek_of_exec_pushInstr (hs : s.mem.wf = true) (hp : plainStack s) (h : exec i s = .next t) :
    t.peek (stackAddr (t.sp + 1)) = v := by
  obtain ⟨hsp, hmem, hregions⟩ :
      t.sp + 1 = s.sp ∧ t.mem = s.ramAfter (stackAddr s.sp) v ∧ t.opaqueRegions = s.opaqueRegions := by
    obtain rfl := Host.Outcome.next.inj ((exec_pushInstr hi).symm.trans h)
    exact ⟨BitVec.sub_add_cancel s.sp 1, rfl, rfl⟩
  have hplain : t.isOpaque (stackAddr s.sp) = false := (State.isOpaque_congr hregions _).trans (hp s.sp)
  rw [hsp, State.peek_plain hplain, State.ramHolds_of_mem_eq_ramAfter hs hmem (hp s.sp)]

end

end Sys2Proof.Machine

namespace Sys2Proof.Proofs

open Machine Claims

/-- Settles O33: the end state differs from the prepared state in S, PC, the history and RAM, and RAM is that of one write
at 0x0100 + S. -/
theorem pushResults : Obligations.PushResults := by
  refine ⟨⟨rfl, rfl⟩, fun s i v hs hi => ⟨_, exec_pushInstr hi, toNat_sub_one s.sp, rfl, ?_⟩⟩
  rw [← stackAddr_eq_ofNat]
  exact ⟨State.ramHolds_of_mem_eq_ramAfter hs rfl, State.ramSameOutside_of_mem_eq_ramAfter hs rfl⟩

/-- Settles O34: each end state is the prepared state with the popped byte in A or P; after PHP that byte is the status
byte with B set, and its flags are those of P. -/
theorem popResults : Obligations.PopResults := by
  refine ⟨⟨rfl, rfl⟩, fun s => ?pops, fun s hs hp => ?phpPlp⟩
  case pops =>
    have hsp : (s.sp + 1).toNat = (s.sp.toNat + 1) % 256 := BitVec.toNat_add s.sp 1
    simp only [← hsp, ← stackAddr_eq_ofNat, ← Flags.setZN_eq_zn, ← Flags.ofByte_or_maskU_and_not_maskB]
    exact ⟨⟨_, exec_pla s, rfl, rfl⟩, ⟨_, exec_plp s, rfl, rfl, Flags.toByte_ofByte _⟩⟩
  case phpPlp =>
    have hi : (Instr.php, _) ∈ [(Instr.pha, s.a), (.php, statusByte { s.p with b := true })] := .tail _ (.head _)
    have hphp := exec_pushInstr hi
    refine ⟨_, _, hphp, exec_plp _, ?_, BitVec.sub_add_cancel s.sp 1⟩
    rw [peek_of_exec_pushInstr hi hs hp hphp, Flags.ofByte_or_maskU_and_not_maskB, Flags.flagsFrom_statusByte]

end Sys2Proof.Proofs

/-! The Encoding lines of the instructions that carry an operand (41_load_store.md to 49_control.md). -/

namespace Sys2Proof

/-- In a line with no mode twice, the byte beside a mode is the one looked up for it. -/
theorem lookup_eq_some_of_mem {line : List (Mode × Byte)} {m : Mode} {op : Byte} (hn : (line.map Prod.fst).Nodup)
    (h : (m, op) ∈ line) : line.lookup m = some op := by
  obtain ⟨l₁, l₂, rfl⟩ := List.append_of_mem h
  rw [List.map_append, List.map_cons, List.nodup_middle, List.nodup_cons] at hn
  refine List.lookup_eq_some_iff.mpr ⟨l₁, l₂, rfl, fun e he => bne_iff_ne.mpr ?_⟩
  rintro rfl
  exact hn.1 (List.mem_append_left _ (List.mem_map.mpr ⟨e, he, rfl⟩))

/-- An instruction whose opcode byte is looked up in a line has the bytes that the line gives it. -/
theorem encode_of_mem_line {f : Operand → Instr} {line : List (Mode × Byte)} {m : Operand} {op : Byte}
    (hop : opcodeOf (f m) = line.lookup m.mode) (ho : (f m).operand = m) (hn : (line.map Prod.fst).Nodup)
    (h : (m.mode, op) ∈ line) : encode (f m) = some (op :: m.bytes) := by
  rw [encode, hop, lookup_eq_some_of_mem hn h, ho]
  rfl

end Sys2Proof

namespace Sys2Proof.Proofs

/-- Settles O5: the encoder looks each instruction's byte up in a line that is the rule's, with each mode once. -/
theorem encodingLinesOfTheRules : Obligations.EncodingLinesOfTheRules := by
  rintro m op f line h (⟨rfl, rfl⟩ | ⟨rfl, rfl⟩ | ⟨rfl, rfl⟩ | ⟨rfl, rfl⟩ | ⟨rfl, rfl⟩ | ⟨rfl, rfl⟩ | ⟨rfl, rfl⟩ |
    ⟨rfl, rfl⟩ | ⟨rfl, rfl⟩ | ⟨rfl, rfl⟩ | ⟨rfl, rfl⟩ | ⟨rfl, rfl⟩ | ⟨rfl, rfl⟩ | ⟨rfl, rfl⟩ | ⟨rfl, rfl⟩ | ⟨rfl, rfl⟩ |
    ⟨rfl, rfl⟩ | ⟨rfl, rfl⟩ | ⟨rfl, rfl⟩ | ⟨rfl, rfl⟩ | ⟨rfl, rfl⟩ | ⟨rfl, rfl⟩)
  all_goals exact encode_of_mem_line rfl rfl (by decide) h

end Sys2Proof.Proofs

/-! Compare, bitwise logic and bit test (47_compare_logic.md): the flags of BIT by weights, and the results of the seven
instructions. -/

namespace Sys2Proof.Machine

open Claims

/-- BIT takes V and N from the bits of VAL, here by their weights (47_compare_logic.md R135). -/
theorem Flags.bitTest_eq (p : Flags) (v a : Byte) :
    p.bitTest v a =
      { p with
        z := decide (v &&& a = 0)
        v := decide (v.toNat / 64 % 2 = 1)
        n := decide (128 ≤ v.toNat) } := by
  have hv : v.getLsbD 6 = decide (v.toNat / 64 % 2 = 1) := Nat.testBit_eq_decide_div_mod_eq
  rw [bitTest, hv, getLsbD_seven_eq_decide]

/-- A comparison writes its flags and moves PC past the instruction (47_compare_logic.md R129 to R131). -/
theorem exec_compare {m : Operand} {s : State} {i : Instr} {r : Byte}
    (hi : (i, r) ∈ [(Instr.cmp m, s.a), (Instr.cpx m, s.x), (Instr.cpy m, s.y)]) :
    exec i s = .next { s.prepared i with p := compared s.p r (s.prepare i).1.val, pc := past s m.mode } := by
  simp only [List.mem_cons, Prod.mk.injEq, List.not_mem_nil, or_false] at hi
  rw [← Flags.compare_eq_compared]
  obtain ⟨rfl, rfl⟩ | ⟨rfl, rfl⟩ | ⟨rfl, rfl⟩ := hi
  · exact exec_cmp m s
  · exact exec_cpx m s
  · exact exec_cpy m s

end Sys2Proof.Machine

namespace Sys2Proof.Proofs

open Machine

/-- Settles O35: a comparison's end state is the prepared state with the flags of R93 and PC past the instruction. -/
theorem compareResults : Obligations.CompareResults :=
  fun _ _ _ _ hi => ⟨_, exec_compare hi, rfl⟩

/-- Settles O36: each end state is the prepared state with the bitwise result in A, and SetZN gives Z and N of it. -/
theorem logicResults : Obligations.LogicResults := by
  rintro m s i f (⟨rfl, rfl⟩ | ⟨rfl, rfl⟩ | ⟨rfl, rfl⟩)
  · exact ⟨_, exec_and m s, fun k _ => BitVec.getLsbD_and, by rw [Flags.setZN_eq_zn]; rfl⟩
  · exact ⟨_, exec_ora m s, fun k _ => BitVec.getLsbD_or, by rw [Flags.setZN_eq_zn]; rfl⟩
  · exact ⟨_, exec_eor m s, fun k _ => BitVec.getLsbD_xor, by rw [Flags.setZN_eq_zn]; rfl⟩

/-- Settles O37: the end state is the prepared state with the flags of the bit test and PC past the instruction. -/
theorem bitTestResult : Obligations.BitTestResult := by
  intro m s
  exact ⟨_, exec_bit m s, by rw [Flags.bitTest_eq]; rfl⟩

end Sys2Proof.Proofs

/-! Add and subtract with carry (48_add_sub.md): the sum in terms of R94, and the difference that adding the complement
makes. -/

namespace Sys2Proof.Machine

open Claims

theorem addWithCarry_eq_added (p : Flags) (a v : Byte) : addWithCarry p a v = added p a v := by
  have hne (t : Byte) : t ≠ 0 ↔ t.toNat ≠ 0 := BitVec.toNat_ne
  simp only [addWithCarry, added, Flags.setZN_eq_zn, hne]

/-! ## Subtraction (48_add_sub.md R137) -/

/-- Adding the complement of `v` takes away `v` and the borrow, modulo 256. -/
theorem toNat_addWithCarry_not_fst (p : Flags) (a v : Byte) :
    ((addWithCarry p a (~~~v)).1.toNat : Int) = ((a.toNat : Int) - v.toNat - (1 - p.c.toNat)) % 256 := by
  have hv := v.isLt
  rw [toNat_addWithCarry_fst, BitVec.toNat_not]
  omega

/-- The carry out of adding the complement says that there is no borrow. -/
theorem addWithCarry_not_c_iff (p : Flags) (a v : Byte) :
    (addWithCarry p a (~~~v)).2.c = true ↔ v.toNat + (1 - p.c.toNat) ≤ a.toNat := by
  have hv := v.isLt
  have hc := p.c.toNat_le
  have hsum : (addWithCarry p a (~~~v)).2.c = true ↔ 0xFF < a.toNat + (~~~v).toNat + p.c.toNat := decide_eq_true_iff
  rw [hsum, BitVec.toNat_not]
  omega

end Sys2Proof.Machine

namespace Sys2Proof.Proofs

open Machine Claims

/-- Settles O38: the end state is the prepared state with A and the flags of the sum, and PC past the instruction. -/
theorem addResult : Obligations.AddResult := by
  intro m s
  exact ⟨_, exec_adc m s, by rw [addWithCarry_eq_added]; rfl⟩

/-- Settles O39: SBC adds the complement of VAL, and SetZN gives Z and N of the difference. -/
theorem subtractResult : Obligations.SubtractResult := by
  intro m s
  refine ⟨_, exec_sbc m s, toNat_addWithCarry_not_fst _ _ _, addWithCarry_not_c_iff _ _ _, ?_⟩
  rw [← Flags.setZN_eq_zn]
  rfl

end Sys2Proof.Proofs

/-! Control (49_control.md): the words and bytes that JSR, JMI and BRK leave on the stack, what RTS and RTI take back from
it, and the results of the jumps, the branches, Null, BRK and NOP. -/

namespace Sys2Proof

/-! ## The bytes of a word (20_memory.md R52) -/

theorem hiByte_eq_ofNat (w : Word) : hiByte w = BitVec.ofNat 8 (w.toNat / 256) := by
  rw [← toNat_hiByte, BitVec.ofNat_toNat, BitVec.setWidth_eq]

theorem loByte_eq_ofNat (w : Word) : loByte w = BitVec.ofNat 8 w.toNat := by
  apply BitVec.eq_of_toNat_eq
  rw [toNat_loByte, BitVec.toNat_ofNat]

theorem hiByte_add_two (w : Word) : hiByte (w + 2) = BitVec.ofNat 8 ((w.toNat + 2) % 65536 / 256) :=
  hiByte_eq_ofNat (w + 2)

theorem loByte_add_two (w : Word) : loByte (w + 2) = BitVec.ofNat 8 (w.toNat + 2) := by
  have hw : (w + 2).toNat = (w.toNat + 2) % 65536 := BitVec.toNat_add w 2
  rw [loByte_eq_ofNat, hw]
  apply BitVec.eq_of_toNat_eq
  simp only [BitVec.toNat_ofNat]
  omega

end Sys2Proof

namespace Sys2Proof.Machine

open Claims

/-! ## What the pushes leave in RAM (20_memory.md R60) -/

namespace State

section

variable {s t : State} {addr : Word} {addrs : List Word}

theorem stackAddr_ne {p q : Byte} (h : p ≠ q) : stackAddr p ≠ stackAddr q := mt stackAddr_inj h

/-- The byte pushed last is there. -/
theorem ramHolds_push_last (ht : t.mem.wf = true) (hr : t.opaqueRegions = s.opaqueRegions) (v : Byte) :
    ramHolds s (t.push v) (stackAddr t.sp) v :=
  fun ho => ramHolds_push ht v ((isOpaque_congr hr _).trans ho)

/-- A byte pushed before stays, when the stack has not come round to it. -/
theorem ramHolds_push_before {v : Byte} (h : ramHolds s t addr v) (ht : t.mem.wf = true) (ha : addr ≠ stackAddr t.sp)
    (w : Byte) : ramHolds s (t.push w) addr v :=
  fun ho => (ramSameOutside_push ht w addr (by simpa using ha)).trans (h ho)

theorem ramSameOutside_push_after (h : ramSameOutside s t addrs) (ht : t.mem.wf = true) (v : Byte) :
    ramSameOutside s (t.push v) (addrs ++ [stackAddr t.sp]) := by
  intro b hb
  rw [List.mem_append, not_or] at hb
  obtain ⟨hbefore, hlast⟩ := hb
  exact (ramSameOutside_push ht v b hlast).trans (h b hbefore)

/-- A word pushed lies in two bytes, the high one above. -/
theorem ram_pushWord (hs : s.mem.wf = true) (w : Word) :
    ramHolds s (s.pushWord w) (stackAddr s.sp) (hiByte w) ∧
    ramHolds s (s.pushWord w) (stackAddr (s.sp - 1)) (loByte w) ∧
    ramSameOutside s (s.pushWord w) [stackAddr s.sp, stackAddr (s.sp - 1)] := by
  have hwf := wf_push hs (hiByte w)
  have hregions : (s.push (hiByte w)).opaqueRegions = s.opaqueRegions := push_opaqueRegions s _
  have hne : stackAddr s.sp ≠ stackAddr (s.sp - 1) := stackAddr_ne (by bv_omega)
  exact ⟨ramHolds_push_before (ramHolds_push hs _) hwf hne _, ramHolds_push_last hwf hregions _,
    ramSameOutside_push_after (ramSameOutside_push hs _) hwf _⟩

/-- What JMI and BRK save lies in three bytes, the status the lowest. -/
theorem ram_saveContext (hs : s.mem.wf = true) (ret : Word) (status : Byte) :
    ramHolds s (s.saveContext ret status) (stackAddr s.sp) (hiByte ret) ∧
    ramHolds s (s.saveContext ret status) (stackAddr (s.sp - 1)) (loByte ret) ∧
    ramHolds s (s.saveContext ret status) (stackAddr (s.sp - 2)) status ∧
    ramSameOutside s (s.saveContext ret status) [stackAddr s.sp, stackAddr (s.sp - 1), stackAddr (s.sp - 2)] := by
  obtain ⟨hhigh, hlow, hsame⟩ := ram_pushWord hs ret
  have hwf := wf_pushWord hs ret
  have hsp : (s.pushWord ret).sp = s.sp - 2 := by rw [pushWord_eq]
  have hregions : (s.pushWord ret).opaqueRegions = s.opaqueRegions := by rw [pushWord_eq]
  have hne : stackAddr s.sp ≠ stackAddr (s.sp - 2) := stackAddr_ne (by bv_omega)
  have hne' : stackAddr (s.sp - 1) ≠ stackAddr (s.sp - 2) := stackAddr_ne (by bv_omega)
  rw [← hsp] at hne hne' ⊢
  exact ⟨ramHolds_push_before hhigh hwf hne _, ramHolds_push_before hlow hwf hne' _,
    ramHolds_push_last hwf hregions _, ramSameOutside_push_after hsame hwf _⟩

/-- Above the stack page a read finds what it would have found before the context was saved. -/
theorem peek_saveContext (hs : s.mem.wf = true) (ret : Word) (status : Byte) (h : List Access)
    (ha : 0x1FF < addr.toNat) : State.peek { s.saveContext ret status with bus := h } addr = answer s h addr := by
  obtain ⟨-, -, -, hsame⟩ := ram_saveContext hs ret status
  have hne (q : Byte) : addr ≠ stackAddr q := by
    rintro rfl
    exact absurd (stackAddr_in_page q).2 (not_le.mpr ha)
  have hread := hsame addr (by simp [hne])
  have hregions : (s.saveContext ret status).opaqueRegions = s.opaqueRegions := by rw [saveContext_eq]
  have hopaque := isOpaque_congr hregions addr
  exact congrArg₂ (fun o v => if o = true then Config.mapByte h addr else v) hopaque hread

/-! ## The bytes above S after the pushes, on a plain stack -/

theorem byteAbove_congr (hm : t.mem = s.mem) (hsp : t.sp = s.sp) (k : Nat) : t.byteAbove k = s.byteAbove k := by
  rw [byteAbove, byteAbove, hm, hsp]

/-- A word pushed is the next to be popped, low byte first. -/
theorem bytesAbove_pushWord (hs : s.mem.wf = true) (hp : plainStack s) (w : Word) :
    (s.pushWord w).byteAbove 1 = loByte w ∧ (s.pushWord w).byteAbove 2 = hiByte w := by
  have hwf := wf_push hs (hiByte w)
  constructor
  · exact byteAbove_push_one hwf (plainStack_push hp _) _
  · exact (byteAbove_push hwf _ (by decide) (by decide)).trans (byteAbove_push_one hs hp _)

/-- The context saved is the next to be popped: the status, then the return address, low byte first. -/
theorem bytesAbove_saveContext (hs : s.mem.wf = true) (hp : plainStack s) (ret : Word) (status : Byte) :
    (s.saveContext ret status).byteAbove 1 = status ∧ (s.saveContext ret status).byteAbove 2 = loByte ret ∧
    (s.saveContext ret status).byteAbove 3 = hiByte ret := by
  obtain ⟨hlow, hhigh⟩ := bytesAbove_pushWord hs hp ret
  have hwf := wf_pushWord hs ret
  have hplain : plainStack (s.pushWord ret) := plainStack_push (plainStack_push hp _) _
  exact ⟨byteAbove_push_one hwf hplain _, (byteAbove_push hwf _ (by decide) (by decide)).trans hlow,
    (byteAbove_push hwf _ (by decide) (by decide)).trans hhigh⟩

/-- The context that interrupt entry saves holds PC and P, and S comes back to it (60_exceptions.md R160, R161). -/
theorem context_of_saveContext (hs : s.mem.wf = true) (hp : plainStack s) :
    let saved := s.saveContext s.pc s.p.toByte
    plainStack saved ∧ joinBytes (saved.byteAbove 3) (saved.byteAbove 2) = s.pc ∧ saved.sp + 3 = s.sp ∧
    flagsFrom (saved.byteAbove 1) = s.p := by
  intro saved
  obtain ⟨hstatus, hlow, hhigh⟩ := bytesAbove_saveContext hs hp s.pc s.p.toByte
  have hplain : plainStack saved := plainStack_push (plainStack_push (plainStack_push hp _) _) _
  have hsp : saved.sp = s.sp - 3 := congrArg sp (saveContext_eq s s.pc s.p.toByte)
  refine ⟨hplain, ?_, ?_, ?_⟩
  · rw [hhigh, hlow, joinBytes_hiByte_loByte]
  · rw [hsp, BitVec.sub_add_cancel]
  · rw [hstatus, Flags.toByte_eq_statusByte, Flags.flagsFrom_statusByte]

/-- Whatever the map has seen, a read of a plain stack gives RAM's byte. -/
theorem peek_with_bus_of_plainStack (hp : plainStack s) (h : List Access) (q : Byte) :
    State.peek { s with bus := h } (stackAddr q) = s.mem.read (stackAddr q).toNat := peek_plain (hp q)

end

end State

open State

/-! ## Call and return, interrupt entry and return (49_control.md R139 to R142) -/

theorem exec_jsr_pushWord (target : Word) (s : State) :
    exec (.jsr target) s = .next
      { s.prepared (.jsr target) with
        sp := s.sp - 2
        mem := (s.pushWord (s.pc + 2)).mem
        bus := .write (stackAddr (s.sp - 1)) (loByte (s.pc + 2)) :: .write (stackAddr s.sp) (hiByte (s.pc + 2)) ::
          (s.prepared (.jsr target)).bus
        pc := target } := by
  rw [exec_jsr, pushWord_eq]

/-- After JSR there lies on the stack what pushing PC0 + 2 puts there. -/
theorem byteAbove_of_exec_jsr {target : Word} {s t : State} (h : exec (.jsr target) s = .next t) (k : Nat) :
    t.byteAbove k = (s.pushWord (s.pc + 2)).byteAbove k := by
  obtain rfl := Host.Outcome.next.inj ((exec_jsr_pushWord target s).symm.trans h)
  have hsp : (s.pushWord (s.pc + 2)).sp = s.sp - 2 := by rw [pushWord_eq]
  apply byteAbove_congr
  · rfl
  · exact hsp.symm

theorem exec_rts_plain {s : State} (hp : plainStack s) :
    exec .rts s = .next
      { s.prepared .rts with
        sp := s.sp + 2
        pc := joinBytes (s.byteAbove 2) (s.byteAbove 1) + 1
        bus := .read (stackAddr (s.sp + 2)) :: .read (stackAddr (s.sp + 1)) :: (s.prepared .rts).bus } := by
  rw [exec_rts, peek_with_bus_of_plainStack hp, peek_with_bus_of_plainStack hp]
  rfl

theorem exec_rti_flagsFrom (s : State) :
    exec .rti s = .next
      { s.prepared .rti with
        sp := s.sp + 3
        p := { flagsFrom (s.peek (stackAddr (s.sp + 1))) with u := true }
        pc := joinBytes
          (answer s (.read (stackAddr (s.sp + 2)) :: .read (stackAddr (s.sp + 1)) :: s.bus) (stackAddr (s.sp + 3)))
          (answer s (.read (stackAddr (s.sp + 1)) :: s.bus) (stackAddr (s.sp + 2)))
        bus := .read (stackAddr (s.sp + 3)) :: .read (stackAddr (s.sp + 2)) :: .read (stackAddr (s.sp + 1)) ::
          (s.prepared .rti).bus } := by
  rw [exec_rti, Flags.ofByte_or_maskU, Flags.ofByte_eq_flagsFrom]
  rfl

theorem exec_rti_plain {s : State} (hp : plainStack s) :
    exec .rti s = .next
      { s.prepared .rti with
        sp := s.sp + 3
        p := { flagsFrom (s.byteAbove 1) with u := true }
        pc := joinBytes (s.byteAbove 3) (s.byteAbove 2)
        bus := .read (stackAddr (s.sp + 3)) :: .read (stackAddr (s.sp + 2)) :: .read (stackAddr (s.sp + 1)) ::
          (s.prepared .rti).bus } := by
  rw [exec_rti_flagsFrom, answer, answer, peek_with_bus_of_plainStack hp, peek_with_bus_of_plainStack hp,
    peek_with_bus_of_plainStack hp]
  rfl

/-! ## The software trap (49_control.md R153) -/

theorem push_with_cyc_latch (s : State) (n : Nat) (r : Latch) (v : Byte) :
    State.push { s with cyc := n, latch := r } v = { s.push v with cyc := n, latch := r } := by
  rw [push_eq, push_eq]
  rfl

/-- Saving the context neither reads nor writes CYC and LATCH. -/
theorem saveContext_with_cyc_latch (s : State) (n : Nat) (r : Latch) (ret : Word) (status : Byte) :
    State.saveContext { s with cyc := n, latch := r } ret status =
      { s.saveContext ret status with cyc := n, latch := r } := by
  simp only [saveContext, pushWord, push_with_cyc_latch]

/-- An Implied instruction is prepared without an access. -/
theorem prepared_of_implied {s : State} {i : Instr} (h : i.operand = .implied) :
    s.prepared i = { s with cyc := (s.prepared i).cyc, latch := (s.prepared i).latch } := by
  have hbus := prepared_bus_implied (s := s) h
  conv => rhs; rw [← hbus]
  rfl

/-- BRK saves the context, with B set in the status byte alone, sets I and reads its vector, which lies outside the stack
page. -/
theorem exec_brk_saveContext {s : State} (hs : s.mem.wf = true) :
    let saved := s.saveContext (s.pc + 2) (s.p.toByte ||| maskB)
    exec .brk s = .next
      { saved with
        cyc := (s.prepared .brk).cyc
        latch := (s.prepared .brk).latch
        p := { s.p with i := true }
        pc := joinBytes (answer s (.read 0xFFFE :: saved.bus) 0xFFFF) (answer s saved.bus 0xFFFE)
        bus := .read 0xFFFF :: .read 0xFFFE :: saved.bus } := by
  intro saved
  have hsaved : (s.prepared .brk).saveContext ((s.prepared .brk).pc + 2) ((s.prepared .brk).p.toByte ||| maskB) =
      { saved with cyc := (s.prepared .brk).cyc, latch := (s.prepared .brk).latch } := by
    rw [prepared_of_implied rfl]
    exact saveContext_with_cyc_latch _ _ _ _ _
  have hlow : saved.peek 0xFFFE = answer s saved.bus 0xFFFE := peek_saveContext hs _ _ saved.bus (by decide)
  have hhigh (h : List Access) : State.peek { saved with bus := h } 0xFFFF = answer s h 0xFFFF :=
    peek_saveContext hs _ _ h (by decide)
  rw [← hlow, ← hhigh, exec_brk, softwareTrap_eq, hsaved]
  rfl

/-! ## The branches (49_control.md R143 to R151) -/

/-- The target of a branch as an integer (30_encoding.md R80). -/
theorem toNat_relativeTarget (pc : Word) (ol : Byte) :
    ((pc + sext16 ol + 2).toNat : Int) = (pc.toNat + ol.toInt + 2) % 65536 := by
  have hoffset := toNat_sext16 ol
  have htwo : (2 : Word).toNat = 2 := rfl
  simp only [BitVec.toNat_add, htwo]
  omega

/-- Each branch with its opcode byte and the flag test it makes. -/
def branches (ol : Byte) (p : Flags) : List (Instr × Byte × Bool) :=
  [(.bpl ol, 0x10, !p.n), (.bmi ol, 0x30, p.n), (.bvc ol, 0x50, !p.v), (.bvs ol, 0x70, p.v),
   (.bcc ol, 0x90, !p.c), (.bcs ol, 0xB0, p.c), (.bne ol, 0xD0, !p.z), (.beq ol, 0xF0, p.z)]

/-- Any of the eight is its opcode byte and its offset, and writes PC alone. -/
theorem exec_branch {ol : Byte} {s : State} {i : Instr} {op : Byte} {cond : Bool} (hi : (i, op, cond) ∈ branches ol s.p) :
    encode i = some [op, ol] ∧
    exec i s = .next { s.prepared i with pc := if cond then s.pc + sext16 ol + 2 else s.pc + 2 } := by
  simp only [branches, List.mem_cons, Prod.mk.injEq, List.not_mem_nil, or_false] at hi
  obtain ⟨rfl, rfl, rfl⟩ | ⟨rfl, rfl, rfl⟩ | ⟨rfl, rfl, rfl⟩ | ⟨rfl, rfl, rfl⟩ | ⟨rfl, rfl, rfl⟩ | ⟨rfl, rfl, rfl⟩ |
    ⟨rfl, rfl, rfl⟩ | ⟨rfl, rfl, rfl⟩ := hi
  · exact ⟨rfl, exec_bpl ol s⟩
  · exact ⟨rfl, exec_bmi ol s⟩
  · exact ⟨rfl, exec_bvc ol s⟩
  · exact ⟨rfl, exec_bvs ol s⟩
  · exact ⟨rfl, exec_bcc ol s⟩
  · exact ⟨rfl, exec_bcs ol s⟩
  · exact ⟨rfl, exec_bne ol s⟩
  · exact ⟨rfl, exec_beq ol s⟩

end Sys2Proof.Machine

namespace Sys2Proof.Proofs

open Machine Claims

/-- Settles O43: the end state is the prepared state with the resolved address in PC. -/
theorem jumpResult : Obligations.JumpResult :=
  fun m s => ⟨_, exec_jmp m s, rfl⟩

/-- Settles O44: the end state differs from the prepared state in S, PC, the history and RAM, and RAM is that of the word
pushed. -/
theorem callResult : Obligations.CallResult := by
  refine ⟨fun _ => rfl, fun target s hs => ⟨_, exec_jsr_pushWord target s, rfl, ?_⟩⟩
  rw [← hiByte_add_two, ← loByte_add_two]
  exact State.ram_pushWord hs _

/-- Settles O45: RTS is its two pops and the addition; after JSR the word popped is the one pushed, PC0 + 2. -/
theorem returnResult : Obligations.ReturnResult := by
  refine ⟨rfl, fun s => ⟨_, exec_rts s, rfl, ?result⟩, fun target s hs hp => ?jsrRts⟩
  case result =>
    rw [← toNat_joinBytes]
    exact BitVec.toNat_add _ _
  case jsrRts =>
    have hjsr := exec_jsr_pushWord target s
    refine ⟨_, _, hjsr, exec_rts_plain hp, rfl, ?_, BitVec.sub_add_cancel s.sp 2⟩
    obtain ⟨hlow, hhigh⟩ := State.bytesAbove_pushWord hs hp (s.pc + 2)
    rw [byteAbove_of_exec_jsr hjsr, byteAbove_of_exec_jsr hjsr, hlow, hhigh, joinBytes_hiByte_loByte]
    exact BitVec.add_assoc _ _ _

/-- Settles O46: under FAULT nothing happens, else RAM is that of the context saved. -/
theorem interruptEntryResult : Obligations.InterruptEntryResult := by
  refine fun target s => ⟨exec_jmi_of_fault target, fun hf hs => ⟨_, exec_jmi_entry target hf, ?frame, ?_⟩⟩
  case frame =>
    rw [State.saveContext_eq]
  rw [← hiByte_eq_ofNat, ← loByte_eq_ofNat, ← Flags.toByte_eq_statusByte]
  exact State.ram_saveContext hs _ _

/-- Settles O47: RTI is its three pops; after JMI the bytes popped are the context saved. -/
theorem interruptReturnResult : Obligations.InterruptReturnResult := by
  refine ⟨rfl, fun s => ⟨_, exec_rti_flagsFrom s, rfl, ?status, toNat_joinBytes _ _⟩, fun target s hf hs hp => ?jmiRti⟩
  case status =>
    rw [← Flags.ofByte_eq_flagsFrom, ← Flags.ofByte_or_maskU]
    exact Flags.toByte_ofByte _
  case jmiRti =>
    obtain ⟨hplain, hpc, hsp, hflags⟩ := State.context_of_saveContext hs hp
    refine ⟨_, _, exec_jmi_entry target hf, exec_rti_plain hplain, rfl, hpc, hsp,
      congrArg (fun q : Flags => { q with u := true }) hflags, ?_⟩
    rw [State.saveContext_eq]
    exact ⟨rfl, rfl, rfl⟩

/-- Settles O48: PC is the target or the next instruction, and the target as an integer is the sum of R80. -/
theorem branchResults : Obligations.BranchResults := by
  intro ol s i op cond hi
  obtain ⟨hencode, hexec⟩ := exec_branch (s := s) hi
  refine ⟨hencode, _, hexec, rfl, ?_⟩
  cases cond with
  | true => exact toNat_relativeTarget s.pc ol
  | false => exact congrArg Nat.cast (BitVec.toNat_add s.pc 2)

/-- Settles O49: Null's end state is the state with FAULT set, and a fault set has code 1. -/
theorem nullRaisesIllegalOpcode : Obligations.NullRaisesIllegalOpcode :=
  fun op s => ⟨_, exec_null op s, rfl, rfl⟩

/-- Settles O50: RAM is that of the context saved, and PC is what the vector reads then, as its two bytes. -/
theorem breakResult : Obligations.BreakResult := by
  have hbrk : pairingOf true 0x00 = some (.implied, fun _ => .brk) := rfl
  have hnull : isNullByte false 0x00 = true := by decide
  refine ⟨fun ol oh => ⟨instrOf_of_pairing hbrk ol oh, instrOf_of_isNullByte hnull ol oh⟩, fun s hs => ?_⟩
  rw [← Flags.toByte_or_maskB]
  have hbus := congrArg State.bus (State.saveContext_eq s (s.pc + 2) (s.p.toByte ||| maskB))
  refine ⟨_, exec_brk_saveContext hs, ?frame, ?_⟩
  case frame =>
    rw [State.saveContext_eq]
    rfl
  rw [← hiByte_add_two, ← loByte_add_two]
  obtain ⟨hhigh, hlow, hstatus, hsame⟩ := State.ram_saveContext hs (s.pc + 2) (s.p.toByte ||| maskB)
  exact ⟨hhigh, hlow, hstatus, hsame, (toNat_joinBytes _ _).trans (by rw [hbus])⟩

/-- Settles O51: the grid has NOP at 0xEA as an extra, and the end state is the prepared state with PC past the opcode byte. -/
theorem nopResult : Obligations.NopResult := by
  have hnop : pairingOf true 0xEA = some (.implied, fun _ => .nop) := rfl
  have hnull : isNullByte false 0xEA = true := by decide
  exact ⟨fun ol oh => ⟨instrOf_of_pairing hnop ol oh, instrOf_of_isNullByte hnull ol oh⟩,
    fun s => ⟨_, exec_nop s, rfl⟩⟩

end Sys2Proof.Proofs

/-! Exceptions (60_exceptions.md): every step completes, and only the fetch of a Null byte sets FAULT. -/

namespace Sys2Proof

theorem lengthOf_of_isNullByte {x : Bool} {op : Byte} (h : isNullByte x op = true) : lengthOf x op = 1 := by
  rw [← instrOf_length x op 0 0, instrOf_of_isNullByte h]
  rfl

end Sys2Proof

namespace Sys2Proof.Machine

open Claims

/-- Every step completes (60_exceptions.md R158). -/
theorem stepCommand_isNext (s : State) : ∃ t, stepCommand s = .next t := by
  by_cases hf : s.fault = none
  · rw [stepCommand_of_no_fault hf]
    exact exec_isNext _ _
  · exact ⟨s, stepCommand_of_fault hf⟩

theorem step_isNext (s : State) : ∃ t, step s = .next t := by
  rcases hc : s.commands with _ | ⟨_ | _ | target, cs⟩
  · rw [step_of_no_command hc]
    exact stepCommand_isNext s
  · rw [step_of_step hc]
    exact stepCommand_isNext _
  · exact ⟨_, step_of_reset hc⟩
  · rw [step_of_interrupt hc]
    exact exec_isNext _ _

/-- At a Null byte the fetch reads that byte alone (30_encoding.md R86). -/
theorem fetch_of_isNullByte {s : State} (h : isNullByte s.cfg.stdExtras (answer s s.bus s.pc) = true) :
    s.fetch = (.null (answer s s.bus s.pc), { s with bus := .read s.pc :: s.bus }) := by
  have hdecode := decode_taken (taken := []) (lengthOf_of_isNullByte h).symm
    [answer s (fetchReads s.pc 1 ++ s.bus) (s.pc + 1), answer s (fetchReads s.pc 2 ++ s.bus) (s.pc + 2)]
  rw [instrOf_of_isNullByte h] at hdecode
  rw [fetch_of_decode hdecode]
  simp [Instr.length, Instr.operand, Operand.mode, Mode.length]

/-- Null fetched carries the byte at PC, and that byte is on the list (30_encoding.md R68). -/
theorem fetched_null {s : State} {op : Byte} (h : s.fetch.1 = .null op) :
    op = answer s s.bus s.pc ∧ isNullByte s.cfg.stdExtras op = true := by
  have hop : opcodeOf s.fetch.1 = some (answer s s.bus s.pc) := opcodeOf_instrOf _ _ _ _
  have hw := fetch_wellFormed s
  rw [h] at hop hw
  exact ⟨Option.some.inj hop, hw⟩

/-- A `Step` that sets FAULT fetched a Null byte, and FAULT holds PC and that byte. -/
theorem stepCommand_sets_fault {s t : State} {f : IllegalOpcode} (hf : s.fault = none) (h : stepCommand s = .next t)
    (ht : t.fault = some f) :
    f.pc = s.pc ∧ f.opcode = answer s s.bus s.pc ∧ isNullByte s.cfg.stdExtras f.opcode = true := by
  rw [stepCommand_of_no_fault hf] at h
  rcases (exec_changesOnly h).fault with ⟨op, hop⟩ | hkept
  · rw [hop, exec_null] at h
    obtain rfl := Host.Outcome.next.inj h
    obtain rfl := Option.some.inj ht
    exact ⟨s.fetch_pc, fetched_null hop⟩
  · rw [hkept, s.fetch_fault, hf] at ht
    nomatch ht

end Sys2Proof.Machine

namespace Sys2Proof.Proofs

open Machine Claims

/-- Settles O7: Null alone may write FAULT, and every command ends in a next state. -/
theorem noOtherConditionRaises : Obligations.NoOtherConditionRaises := by
  refine ⟨fun i s hi => ?_, fun b s => exec_isNext _ s, step_isNext⟩
  obtain ⟨t, h⟩ := exec_isNext i s
  exact ⟨t, h, (exec_changesOnly h).fault.resolve_left fun ⟨op, hop⟩ => hi op hop⟩

/-- Settles O9: a Null byte is fetched with one read and its instruction sets FAULT; and of the commands, `Reset` clears
FAULT and `Interrupt` keeps it, so that one that sets it is a `Step`. -/
theorem nullOpcodeAloneFaultsPrecisely : Obligations.NullOpcodeAloneFaultsPrecisely := by
  refine ⟨fun s hf hc hnull => ?precise, fun s t f hf h ht => ?cause⟩
  case precise => rw [step_of_no_command hc, stepCommand_of_no_fault hf, fetch_of_isNullByte hnull, exec_null]
  case cause =>
    rcases hc : s.commands with _ | ⟨_ | _ | target, cs⟩
    · exact ⟨.inl rfl, stepCommand_sets_fault hf (step_of_no_command hc ▸ h) ht⟩
    · exact ⟨.inr ⟨cs, rfl⟩, stepCommand_sets_fault (s := { s with commands := cs }) hf (step_of_step hc ▸ h) ht⟩
    · rw [step_of_reset hc] at h
      obtain rfl := Host.Outcome.next.inj h
      nomatch ht
    · rcases (exec_changesOnly (step_of_interrupt hc ▸ h)).fault with ⟨op, hop⟩ | hkept
      · nomatch hop
      · exact nomatch (ht.symm.trans hkept).trans hf

end Sys2Proof.Proofs

/-! Reset and cycles (70_reset_and_hazards.md): the cycles of the resolution, those of every instruction, and the reset
state and sequence. -/

namespace Sys2Proof.Machine

open Claims

/-! ## Page crossings (30_encoding.md R72, R78, R79) -/

/-- Masking off the low byte leaves the page. -/
theorem and_pageMask (n : Nat) : n &&& 0xFF00 = n / 256 % 256 * 256 := by
  have hpage : (n &&& 0xFF00) / 2 ^ 8 = n / 2 ^ 8 % 2 ^ 8 := by
    rw [Nat.and_div_two_pow, ← Nat.and_two_pow_sub_one_eq_mod]
  have hoffset : (n &&& 0xFF00) % 2 ^ 8 = 0 := by
    rw [Nat.and_mod_two_pow]
    exact Nat.and_zero _
  omega

/-- The index leaves the page exactly when the address has another high byte. -/
theorem crossesPage_eq (base : Word) (idx : Byte) : crossesPage base idx = (hiByte (base + zext16 idx) != hiByte base) := by
  have hidx := toNat_zext16 idx
  have hbase := base.isLt
  have hlt := idx.isLt
  rw [crossesPage, Bool.eq_iff_iff, bne_iff_ne, bne_iff_ne, and_pageMask, and_pageMask, BitVec.toNat_ne, toNat_hiByte,
    toNat_hiByte, BitVec.toNat_add, hidx]
  omega

/-- The address has another high byte than the base of the indexed mode that gave it. -/
def State.leftPage (s : State) (ea : Word) : Operand → Bool
  | .absoluteX ow | .absoluteY ow => hiByte ea != hiByte ow
  | .indirectIndexedY _ => hiByte ea != hiByte (ea - zext16 s.y)
  | _ => false

theorem penaltyOf_eq (s : State) (i : Instr) (ea : Word) :
    penaltyOf s i ea = if isReadClass i && s.leftPage ea i.operand then s.cfg.pageCrossPenalty else 0 := by
  cases i <;> rfl

theorem leftPage_of_not_indexed {o : Operand} (h : isIndexedMode o.mode = false) (s : State) (ea : Word) :
    s.leftPage ea o = false := by
  cases o
  case absoluteX | absoluteY | indirectIndexedY => nomatch h
  all_goals rfl

/-- In the modes without an index, and (zp,X), there is no penalty (30_encoding.md R72). -/
theorem penaltyOf_of_not_indexed {i : Instr} (h : isIndexedMode i.operand.mode = false) (s : State) (ea : Word) :
    penaltyOf s i ea = 0 := by
  rw [penaltyOf_eq, leftPage_of_not_indexed h, Bool.and_false]
  rfl

theorem crossingCycles_eq {i : Instr} (h : isIndexedMode i.operand.mode = true) (s : State) (base : Word) (idx : Byte) :
    s.crossingCycles (isCycleSensitive i) base idx =
      if isReadClass i && (hiByte (base + zext16 idx) != hiByte base) then s.cfg.pageCrossPenalty else 0 := by
  rw [State.crossingCycles, isCycleSensitive, h, Bool.and_true, crossesPage_eq]

/-- Preparation adds the base cost, and the penalty where an index leaves the page. -/
theorem prepare_cyc (s : State) (i : Instr) :
    (s.prepare i).2.cyc = s.cyc + s.baseCyclesOf i + penaltyOf s i (s.prepare i).1.ea := by
  cases ho : i.operand with
  | absoluteX ow | absoluteY ow =>
    rw [penaltyOf_eq, ho, State.prepare, ho, State.resolve, State.readIndexed_eq, crossingCycles_eq (by rw [ho]; rfl)]
    rfl
  | indirectIndexedY ol =>
    have hea : (s.prepare i).1.ea = (s.readZP16 ol).1 + zext16 s.y := by
      rw [State.prepare_indirectIndexedY ho]
      rfl
    rw [penaltyOf_eq, ho, hea, State.leftPage, BitVec.add_sub_cancel, State.prepare, ho, State.resolve, State.readIndexed_eq,
      crossingCycles_eq (by rw [ho]; rfl), State.readZP16_eq, State.readZP16_eq]
    rfl
  | absolute ow =>
    rw [penaltyOf_of_not_indexed (by rw [ho]; rfl), State.prepare, ho, State.resolve]
    split <;> rfl
  | indexedIndirectX ol =>
    rw [penaltyOf_of_not_indexed (by rw [ho]; rfl), State.prepare, ho, State.resolve, State.readZP16_eq]
    rfl
  | _ =>
    rw [penaltyOf_of_not_indexed (by rw [ho]; rfl), State.prepare, ho]
    rfl

/-! ## The execute phase (70_reset_and_hazards.md R177) -/

namespace State

theorem storeAndTest_cyc (s : State) (ea : Word) (v : Byte) : (s.storeAndTest ea v).cyc = s.cyc := by
  rw [storeAndTest_eq]

theorem writeBackShift_cyc (s : State) (m : Mode) (ea : Word) (r : Byte × Flags) :
    (s.writeBackShift m ea r).cyc = s.cyc := by
  rw [writeBackShift_eq]

theorem pushWord_cyc (s : State) (w : Word) : (s.pushWord w).cyc = s.cyc := by
  rw [pushWord_eq]

theorem softwareTrap_cyc (s : State) : s.softwareTrap.cyc = s.cyc := by
  rw [softwareTrap_eq, saveContext_eq]

end State

/-- The execute phase of an instruction that a mode resolves adds no cycle. -/
theorem exec_resolved_cyc {i : Instr} {s t : State} (hi : isResolved i = true) (h : exec i s = .next t) :
    t.cyc = (s.prepare i).2.cyc := by
  cases i <;> obtain rfl := Host.Outcome.next.inj h
  case null | jmi => nomatch hi
  case sta | stx | sty => exact State.memWrite_cyc _ _ _
  case inc | dec => exact State.storeAndTest_cyc _ _ _
  case asl | lsr | rol | ror => exact State.writeBackShift_cyc _ _ _ _
  case pha | php => exact State.push_cyc _ _
  case jsr => exact State.pushWord_cyc _ _
  case brk => exact State.softwareTrap_cyc _
  all_goals rfl

end Sys2Proof.Machine

namespace Sys2Proof.Proofs

open Machine

/-- Settles O14: the cycles are those of preparation, for JMI those of interrupt entry. -/
theorem cyclesOfEveryInstruction : Obligations.CyclesOfEveryInstruction := by
  refine ⟨fun i op s hi hop => ?resolved, fun op s => ⟨_, exec_null op s, rfl⟩,
    fun target s hf => ⟨_, exec_jmi_entry target hf, rfl⟩⟩
  case resolved =>
    obtain ⟨t, h, hlatch, -⟩ := exec_accesses s hi
    have hbase : s.baseCyclesOf i = s.cfg.baseCycles.getD op.toNat 0 := by
      rw [State.baseCyclesOf, hop]
      rfl
    exact ⟨t, h, by rw [exec_resolved_cyc hi h, prepare_cyc, hlatch, hbase]⟩

/-- Settles O57: the reset sequence writes every field itself, PC as the word read at the vector. -/
theorem resetCommandResult : Obligations.ResetCommandResult :=
  fun _ _ hc => ⟨_, step_of_reset hc, rfl, rfl, rfl, rfl, toNat_joinBytes _ _⟩

/-- Settles O11: at reset RAM lists nothing, U is set and no fault is recorded. -/
theorem resetMeetsInvariant : Obligations.ResetMeetsInvariant where
  memoryCanonical := rfl
  ignoredFlagSet := rfl
  faultNamesNull := rfl

/-- Settles O58, by reading the fields of the reset state. -/
theorem resetStateHasTheSpecsValues : Obligations.ResetStateHasTheSpecsValues :=
  ⟨rfl, rfl, rfl, rfl, rfl, rfl, rfl, rfl, rfl, rfl, rfl⟩

end Sys2Proof.Proofs
